-- ==== Sys2Proof/Word.lean ====
section
/-! DEFINITION. The two word types of the core: bytes and u16 values (00_scope.md R8). -/

namespace Sys2Proof

/-- A byte, an unsigned 8-bit value (R8). -/
abbrev Byte := BitVec 8

/-- A u16, an unsigned 16-bit value (R8). -/
abbrev Word := BitVec 16

end Sys2Proof
end

