-- ==== Sys2Proof/Config.lean ====
section
/-! DEFINITION. The parameters of the core (00_scope.md R7) and the values the spec leaves free. -/

namespace Sys2Proof

/-- The configuration that is fixed for a run (10_state.md R40, 00_scope.md R7). No operation writes it. -/
structure Params where
  /-- A read of an empty `RXQ` in a header state may time out (R175). `OPEN` in R7. -/
  headerTimeout : Bool
  /-- A read of an empty `RXQ` in a body state may time out (R176). Default false. -/
  bodyTimeout : Bool
  /-- Nominal length of the pause in milliseconds (R242). No rule reads it. -/
  turnaroundDelay : Nat
deriving DecidableEq, Repr

/-- What the transport proposes to answer to a read (42_response_parser.md R166). -/
inductive ReadAnswer where
  /-- no failure and no timeout: the head of `RXQ` if there is one, else nothing yet -/
  | byte
  /-- the read fails -/
  | fail
  /-- the read times out, where R175 or R176 enables that -/
  | timeout
deriving DecidableEq, Repr, Inhabited

/-- One draw of the transport: how it answers the flush, the write or the read of ONE step
(60_exceptions.md R215). A free value; DESIGN CHOICE for its form, log entry 2. -/
structure Draw where
  flushFails : Bool
  /-- `none`: the write succeeds. `some k`: it fails after the first `k` bytes were sent (R60). -/
  writeSent : Option Nat
  read : ReadAnswer
deriving DecidableEq, Repr, Inhabited

namespace Config

/-- `CRC_INIT` (R7). -/
def crcInit : Word := 0x0000#16

/-- `CRC_POLY_DEFAULT` (R7): the framer and the parser always use it. -/
def crcPolyDefault : Word := 0x1021#16

/-- `MAX_PAYLOAD` (R7). -/
abbrev maxPayload : Nat := 255

/-- `PBUF_SIZE` (R7). -/
abbrev pbufSize : Nat := 255

/-- `MAX_PORT_FRAME` (R7): the largest value of a 16-bit length operand. -/
abbrev maxPortFrame : Nat := 65535

/-- The parameters of `State.reset`: `bodyTimeout` and `turnaroundDelay` at R7's values;
DESIGN CHOICE for the OPEN `headerTimeout`, log entry 10. -/
def defaultParams : Params := { headerTimeout := false, bodyTimeout := false, turnaroundDelay := 50 }

/-- FREE VALUE: the transport's answers past the end of the tape (R215, log entry 2). -/
opaque freeDraw : Nat → Draw

/-- FREE VALUE: the contents of `PBUF` after a reset event (R38 "unspecified: any value", log entry 8). -/
opaque freePbuf : Nat → Vector Byte pbufSize

end Config

end Sys2Proof
end

