-- ==== Sys2Proof/Syntax.lean ====
section
/-! DEFINITION. The instructions: one constructor for each row of spec/opcode_table.json. -/

namespace Sys2Proof

/-- The three ways bytes reach the decoder. The same byte string can stand on two of them
(`02 00 00 ...`), so a decoder is told its channel (log entry 13). -/
inductive Channel where
  /-- the host port (30_encoding.md R80) -/
  | port
  /-- command frames handed to the transport (R70) -/
  | outbound
  /-- responses arriving from the device (R75) -/
  | inbound
deriving DecidableEq, Repr

/-- The ten assigned opcodes of the host port (30_encoding.md R80, R83). -/
inductive Opcode where
  | cInit | cBit | cByte | cPoly | cRead | fBuild | pStart | pSend | pStatus | pPayload
deriving DecidableEq, Repr

/-- The three command types (30_encoding.md R73). -/
inductive CommandType where
  | read | write | eeprom
deriving DecidableEq, Repr

/-- The instructions. Length fields are not operands of their own: they are the lengths of the lists. -/
inductive Instr where
  /-- `C_INIT` (R110) -/
  | cInit
  /-- `C_BIT d` (R111) -/
  | cBit (d : Bool)
  /-- `C_BYTE x` (R112) -/
  | cByte (x : Byte)
  /-- `C_POLY p` (R113) -/
  | cPoly (p : Word)
  /-- `C_READ` (R114) -/
  | cRead
  /-- `F_BUILD t, addr, data` (R131); `t` is any byte (R81) -/
  | fBuild (t ah al : Byte) (data : List Byte)
  /-- `P_START f` (R161) -/
  | pStart (f : List Byte)
  /-- `P_SEND f` (R136) -/
  | pSend (f : List Byte)
  /-- `P_STATUS` (R180) -/
  | pStatus
  /-- `P_PAYLOAD` (R181) -/
  | pPayload
  /-- `CMD_READ`: a command frame of type 0x07 (R70, R73) -/
  | cmdRead (ah al : Byte) (data : List Byte) (crc : Word)
  /-- `CMD_WRITE`: a command frame of type 0x08 (R70, R73) -/
  | cmdWrite (ah al : Byte) (data : List Byte) (crc : Word)
  /-- `CMD_EEPROM`: a command frame of type 0x09 (R70, R73) -/
  | cmdEeprom (ah al : Byte) (data : List Byte) (crc : Word)
  /-- `RESPONSE`: a response frame (R75) -/
  | response (data : List Byte) (crc : Word)
deriving DecidableEq, Repr

/-- Why a decoder rejects its bytes (30_encoding.md R92 for the port). -/
inductive Reject where
  /-- R92 (a): an opcode outside R83's ten -/
  | unassignedOpcode (op : Byte)
  /-- R92 (b): a `C_BIT` operand other than 0x00 or 0x01 -/
  | badBitOperand (d : Byte)
  /-- R92 (c): the string ends before the operands are complete -/
  | truncated
  /-- not the header `7E 00` of R70 -/
  | notACommandHeader
  /-- a command type outside R73's three (R74) -/
  | illegalCommandType (t : Byte)
  /-- not the markers `02 00 00` of R75 -/
  | notAResponseMarker
deriving DecidableEq, Repr

end Sys2Proof
end

