-- ==== Sys2Proof/Machine/State.lean ====
section
/-! DEFINITION. The state of the core and its environment, as plain data, and the state after reset. -/

namespace Sys2Proof.Machine

/-- The parser's twelve states (10_state.md R25). -/
inductive PState where
  | idle | expect02 | expect00a | expect00b | readLength | readData | readCrcHi | readCrcLo
  | done | checksumError | noResponse | transportError
deriving DecidableEq, Repr

/-- The events of the history `H` (20_memory.md R57). -/
inductive Event where
  | flush
  | flushFail
  | write (s : List Byte)
  | writeFail (sent : List Byte)
  | delay
  | read (b : Byte)
  | readTimeout
  | readFail
deriving DecidableEq, Repr

/-- One move of an agent (00_scope.md R5). DESIGN CHOICE for the form, log entry 1. -/
inductive Move where
  /-- the host puts `bytes` on the port, and the core executes ONE operation from the port's front -/
  | host (bytes : List Byte)
  /-- the core takes one internal read step (42_response_parser.md R166) -/
  | read
  /-- the device appends `bytes` to the tail of `RXQ` (20_memory.md R69) -/
  | device (bytes : List Byte)
  /-- a bare command frame is handed to the transport (log entry 11) -/
  | transmit (bytes : List Byte)
  /-- a reset event (70_reset_and_hazards.md R230) -/
  | reset
deriving DecidableEq, Repr

/-- The faults. -/
inductive Fault where
  /-- `ExchangeBusy` (60_exceptions.md R205): marked by `P_START`, `P_SEND` and the bare command frames
  issued during an exchange; every later step answers it. Safe: the machine takes no further step. -/
  | exchangeBusy
deriving DecidableEq, Repr

/-- The refusals: no meaning, the machine stops. -/
inductive Refusal where
  /-- an instruction without a meaning yet, by its mnemonic; raised by exec's refused arms only. Safe. -/
  | notModelled (mnemonic : String)
  /-- raised by a step whose move hands over bytes that are not exactly one command frame of
  30_encoding.md R70 (log entry 20). Safe: the machine stops. -/
  | notACommandFrame
deriving DecidableEq, Repr

/-- The state: the core's own (10_state.md R20), the environment's `RXQ` and `H` (R32, R33), the fixed
configuration (R40), and the model's own fields from `port` on (log entries 1 to 4). -/
structure State where
  /-- `CRC` (R21) -/
  crc : Word
  /-- `POLY` (R23) -/
  poly : Word
  /-- `PSTATE` (R25) -/
  pstate : PState
  /-- `LEN` (R28) -/
  len : Byte
  /-- `CNT` (R29) -/
  cnt : Byte
  /-- `PBUF` (R30) -/
  pbuf : Vector Byte Config.pbufSize
  /-- `RXCRC` (R31) -/
  rxcrc : Word
  /-- `FAULT` (R34) -/
  fault : Option Fault
  /-- `REFUSED` (R34) -/
  refused : Bool
  /-- `RXQ` (R32), the head first -/
  rxq : List Byte
  /-- `H` (R33), the oldest event first -/
  hist : List Event
  /-- the parameters of a run (R40) -/
  params : Params
  /-- the bytes on the port that the decoder has not taken (log entry 3) -/
  port : List Byte
  /-- the return strings handed to the host (30_encoding.md R82), the oldest first (log entry 4) -/
  out : List (List Byte)
  /-- which agent moves next (20_memory.md R63, log entry 1) -/
  agenda : List Move
  /-- the transport's coming answers (60_exceptions.md R215, log entry 2) -/
  tape : List Draw
  /-- how many free values have been used (log entry 2) -/
  drawn : Nat
deriving DecidableEq, Repr

/-- The state right after reset (10_state.md R38), with nothing placed. `pbuf` is log entry 8, `rxq` and
`hist` log entry 9, `params` log entry 10, the model's own fields log entries 1 to 4. -/
def State.reset : State where
  crc := 0x0000#16
  poly := 0x1021#16
  pstate := .idle
  len := 0x00#8
  cnt := 0x00#8
  pbuf := Vector.replicate Config.pbufSize 0x00#8
  rxcrc := 0x0000#16
  fault := none
  refused := false
  rxq := []
  hist := []
  params := Config.defaultParams
  port := []
  out := []
  agenda := []
  tape := []
  drawn := 0

end Sys2Proof.Machine
end

