-- ==== Sys2Proof/Machine/Flags.lean ====
section
/-! DEFINITION. The core has no condition flags (10_state.md R37); what takes their place is here: the kinds of
parser state, the STATUS view and the return codes. -/

namespace Sys2Proof.Machine

/-- The 4-bit code of a parser state (10_state.md R25). -/
def PState.code : PState → BitVec 4
  | .idle => 0
  | .expect02 => 1
  | .expect00a => 2
  | .expect00b => 3
  | .readLength => 4
  | .readData => 5
  | .readCrcHi => 6
  | .readCrcLo => 7
  | .done => 8
  | .checksumError => 9
  | .noResponse => 10
  | .transportError => 11

/-- The header states, whose reads time out under `headerTimeout` (42_response_parser.md R175). -/
def PState.header : PState → Bool
  | .expect02 | .expect00a | .expect00b => true
  | .readLength | .readData | .readCrcHi | .readCrcLo => false
  | .idle | .done | .checksumError | .noResponse | .transportError => false

/-- The body states, whose reads time out under `bodyTimeout` (R176). -/
def PState.body : PState → Bool
  | .readLength | .readData | .readCrcHi | .readCrcLo => true
  | .expect02 | .expect00a | .expect00b => false
  | .idle | .done | .checksumError | .noResponse | .transportError => false

/-- The reading states (10_state.md R27): an exchange is in progress. -/
def PState.reading (p : PState) : Bool := p.header || p.body

/-- The terminal states (R27). -/
def PState.terminal : PState → Bool
  | .done | .checksumError | .noResponse | .transportError => true
  | .idle | .expect02 | .expect00a | .expect00b => false
  | .readLength | .readData | .readCrcHi | .readCrcLo => false

/-- The STATUS byte (R35): the code in bits 3:0, zeros in bits 7:4. -/
def PState.status (p : PState) : Byte := p.code.setWidth 8

/-- The error kinds (60_exceptions.md R200). -/
inductive ErrorKind where
  | ok | noResponse | checksumError | transportError | invalidCommandType | payloadTooLong | noResult
deriving DecidableEq, Repr

/-- The return code of an error kind (R200). -/
def ErrorKind.code : ErrorKind → Byte
  | .ok => 0x00#8
  | .noResponse => 0x01#8
  | .checksumError => 0x02#8
  | .transportError => 0x03#8
  | .invalidCommandType => 0x04#8
  | .payloadTooLong => 0x05#8
  | .noResult => 0x06#8

/-- Whether the transport may let a read of an empty `RXQ` time out in this state (R175, R176). -/
def State.timeoutEnabled (s : State) : Bool :=
  (s.pstate.header && s.params.headerTimeout) || (s.pstate.body && s.params.bodyTimeout)

end Sys2Proof.Machine
end

