-- ==== Sys2Proof/Machine/Operands.lean ====
section
/-! DEFINITION. Operand forms: splitting and joining u16 values, length fields, taking a counted run of bytes. -/

namespace Sys2Proof

/-- `hi(v) = v[15:8]` (00_scope.md R9). -/
def hiByte (v : Word) : Byte := v.extractLsb' 8 8

/-- `lo(v) = v[7:0]` (R9). -/
def loByte (v : Word) : Byte := v.extractLsb' 0 8

/-- `be16(h, l)` (R9): two bytes, the high one first. -/
def be16 (h l : Byte) : Word := h ++ l

/-- `be_bytes(v)` (R9): a u16 as it stands on the wire and on the port (20_memory.md R52, R53, R56). -/
def beBytes (v : Word) : List Byte := [hiByte v, loByte v]

/-- A one-byte length field (20_memory.md R54). -/
def lenByte (n : Nat) : Byte := BitVec.ofNat 8 n

/-- A 16-bit length operand of the port (30_encoding.md R81). -/
def lenWord (n : Nat) : Word := BitVec.ofNat 16 n

/-- The first `n` bytes and the rest, if there are that many (30_encoding.md R84). -/
def takeExact (n : Nat) (bs : List Byte) : Option (List Byte × List Byte) :=
  if n ≤ bs.length then some (bs.take n, bs.drop n) else none

end Sys2Proof
end

