-- ==== Sys2Proof/Machine/Ops.lean ====
section
/-! DEFINITION. The named operations: the CRC functions, the updates of State, the transport's primitives, the
fault and refusal marks, reset. The core has no traps and no return from one (60_exceptions.md R204, R213):
what stands in their place is `State.raiseFault` and the entry of a terminal state by `State.goTo`. -/

namespace Sys2Proof.Machine

/-! ## CRC (40_crc_engine.md) -/

/-- One bit step, by the source's three numbered steps (R101). `t` is the 17-bit intermediate. -/
def crcStep (r : Word) (d : Bool) (p : Word) : Word :=
  let t : BitVec 17 := r.setWidth 17 <<< 1
  let t := if t.getLsbD 16 then t ^^^ p.setWidth 17 else t
  let t := if d then t ^^^ p.setWidth 17 else t
  t.setWidth 16

/-- The bits of a byte, the most significant first (20_memory.md R55). -/
def bitsMsbFirst (x : Byte) : List Bool :=
  [x.getLsbD 7, x.getLsbD 6, x.getLsbD 5, x.getLsbD 4, x.getLsbD 3, x.getLsbD 2, x.getLsbD 1, x.getLsbD 0]

/-- One byte step: eight bit steps, the most significant bit first (R103). -/
def crcByte (r : Word) (x : Byte) (p : Word) : Word :=
  (bitsMsbFirst x).foldl (fun r d => crcStep r d p) r

/-- `crc16(s, p)` (R104). -/
def crc16 (s : List Byte) (p : Word) : Word :=
  s.foldl (fun r x => crcByte r x p) Config.crcInit

/-- `crc16(s)` with the default polynomial, as the framer and the parser use it (R11, 41_framer.md R133). -/
def crcDefault (s : List Byte) : Word := crc16 s Config.crcPolyDefault

/-! ## Updates of State -/

/-- `CRC <- v` -/
def State.setCrc (v : Word) (s : State) : State := { s with crc := v }

/-- `POLY <- v` -/
def State.setPoly (v : Word) (s : State) : State := { s with poly := v }

/-- `state <- p` (00_scope.md R10) -/
def State.goTo (p : PState) (s : State) : State := { s with pstate := p }

/-- `LEN <- v` -/
def State.setLen (v : Byte) (s : State) : State := { s with len := v }

/-- `CNT <- v` -/
def State.setCnt (v : Byte) (s : State) : State := { s with cnt := v }

/-- `RXCRC <- v` -/
def State.setRxcrc (v : Word) (s : State) : State := { s with rxcrc := v }

/-- `PBUF[i] <- b` (00_scope.md R10). `PBUF` has the indexes 0..254 (20_memory.md R51); at 255, which no run
reaches (R29, R171), nothing is written: DESIGN CHOICE, log entry 14. -/
def State.writePbuf (i b : Byte) (s : State) : State :=
  { s with pbuf := if h : i.toNat < Config.pbufSize then s.pbuf.set i.toNat b else s.pbuf }

/-- `PBUF[0..n)` -/
def State.pbufPart (n : Byte) (s : State) : List Byte := s.pbuf.toList.take n.toNat

/-- Append one event to `H` (10_state.md R33). -/
def State.log (e : Event) (s : State) : State := { s with hist := s.hist ++ [e] }

/-- `ret([code] ++ data)` (30_encoding.md R82). -/
def State.reply (k : ErrorKind) (data : List Byte) (s : State) : State :=
  { s with out := s.out ++ [k.code :: data] }

/-- Replace `RXQ`. -/
def State.setRxq (q : List Byte) (s : State) : State := { s with rxq := q }

/-! ## The environment -/

/-- The device appends bytes to the tail of `RXQ` (20_memory.md R69). -/
def State.receive (bs : List Byte) (s : State) : State := s.setRxq (s.rxq ++ bs)

/-- The transport's answer to this step's transport action: the tape's head, or a free value past its end. -/
def State.draw (s : State) : Draw :=
  match s.tape with
  | d :: _ => d
  | [] => Config.freeDraw s.drawn

/-- The answer has been used. -/
def State.nextDraw (s : State) : State := { s with tape := s.tape.tail, drawn := s.drawn + 1 }

/-- `Write(f)` under the transport's answer `d` (20_memory.md R60): the event, and whether it failed. -/
def writeEvent (f : List Byte) (d : Draw) : Event :=
  match d.writeSent with
  | none => .write f
  | some k => .writeFail (f.take k)

/-! ## Marks -/

/-- `fault <Name>` (60_exceptions.md R205): the mark, and nothing else; returns nothing. -/
def State.raiseFault (f : Fault) (s : State) : State := { s with fault := some f }

/-- `refuse` (30_encoding.md R92): the mark, and nothing else of the core; returns nothing. The whole refused
string leaves the port: DESIGN CHOICE, log entry 3. -/
def State.refuse (s : State) : State := { s with refused := true, port := [] }

/-! ## Shared by the operations that write to the transport -/

/-- Write `f` and read nothing (41_framer.md R136): the event, and 0x00 or 0x03 to the host. -/
def State.sendOnly (f : List Byte) (s : State) : State :=
  let d := s.draw
  (s.nextDraw.log (writeEvent f d)).reply (if d.writeSent.isSome then .transportError else .ok) []

/-- Send a frame fire-and-forget; busy during an exchange (R136, R137). -/
def State.transmit (f : List Byte) (s : State) : State :=
  if s.pstate.reading then s.raiseFault .exchangeBusy else s.sendOnly f

/-! ## Reset -/

/-- A reset event (70_reset_and_hazards.md R230): every element of the core takes its reset value, `PBUF` a
free one (10_state.md R38, log entry 8); `RXQ`, `H`, the configuration and the model's own fields stay. -/
def State.resetEvent (s : State) : State :=
  { s with
    crc := State.reset.crc
    poly := State.reset.poly
    pstate := State.reset.pstate
    len := State.reset.len
    cnt := State.reset.cnt
    pbuf := Config.freePbuf s.drawn
    rxcrc := State.reset.rxcrc
    fault := State.reset.fault
    refused := State.reset.refused
    drawn := s.drawn + 1 }

end Sys2Proof.Machine
end

