-- ==== Sys2Proof/Machine/CrcUnit.lean ====
section
/-! DEFINITION. Unit C: the meanings of the five CRC operations (40_crc_engine.md R110 to R114). They are legal
in every PSTATE and touch no state of the other units. -/

namespace Sys2Proof.Machine

/-- `C_INIT` (R110). -/
def execCInit (s : State) : Host.Outcome State Fault Refusal :=
  .next ((s.setCrc Config.crcInit).reply .ok [])

/-- `C_BIT d` (R111). -/
def execCBit (d : Bool) (s : State) : Host.Outcome State Fault Refusal :=
  .next ((s.setCrc (crcStep s.crc d s.poly)).reply .ok [])

/-- `C_BYTE x` (R112): the eight bit steps are one atomic operation. -/
def execCByte (x : Byte) (s : State) : Host.Outcome State Fault Refusal :=
  .next ((s.setCrc (crcByte s.crc x s.poly)).reply .ok [])

/-- `C_POLY p` (R113). -/
def execCPoly (p : Word) (s : State) : Host.Outcome State Fault Refusal :=
  .next ((s.setPoly p).reply .ok [])

/-- `C_READ` (R114). -/
def execCRead (s : State) : Host.Outcome State Fault Refusal :=
  .next (s.reply .ok (beBytes s.crc))

end Sys2Proof.Machine
end

