-- ==== Sys2Proof/WellFormed.lean ====
section
/-! DEFINITION. Which instructions have an encoding: the bounds of their length fields. -/

namespace Sys2Proof

/-- An instruction is well formed when its byte list fits its length field: 16 bits on the port
(30_encoding.md R81), 8 bits in the wire frames (R70, R75). -/
def Instr.wellFormed : Instr → Bool
  | .cInit => true
  | .cBit _ => true
  | .cByte _ => true
  | .cPoly _ => true
  | .cRead => true
  | .fBuild _ _ _ data => decide (data.length ≤ Config.maxPortFrame)
  | .pStart f => decide (f.length ≤ Config.maxPortFrame)
  | .pSend f => decide (f.length ≤ Config.maxPortFrame)
  | .pStatus => true
  | .pPayload => true
  | .cmdRead _ _ data _ => decide (data.length ≤ Config.maxPayload)
  | .cmdWrite _ _ data _ => decide (data.length ≤ Config.maxPayload)
  | .cmdEeprom _ _ data _ => decide (data.length ≤ Config.maxPayload)
  | .response data _ => decide (data.length ≤ Config.maxPayload)

end Sys2Proof
end

