-- ==== Sys2Proof/Decode.lean ====
section
/-! DEFINITION. The decoder, one function per channel, total on any bytes and rejecting by name; then the
encoder, written from the same tables; then the two functions the host's table check uses. -/

namespace Sys2Proof

/-- The opcode byte of a port operation (30_encoding.md R80). -/
def Opcode.byte : Opcode → Byte
  | .cInit => 0x01#8
  | .cBit => 0x02#8
  | .cByte => 0x03#8
  | .cPoly => 0x04#8
  | .cRead => 0x05#8
  | .fBuild => 0x10#8
  | .pStart => 0x20#8
  | .pSend => 0x21#8
  | .pStatus => 0x22#8
  | .pPayload => 0x23#8

/-- The opcode map (R83): exactly ten values are assigned. -/
def Opcode.ofByte? (b : Byte) : Option Opcode :=
  match b.toNat with
  | 0x01 => some .cInit
  | 0x02 => some .cBit
  | 0x03 => some .cByte
  | 0x04 => some .cPoly
  | 0x05 => some .cRead
  | 0x10 => some .fBuild
  | 0x20 => some .pStart
  | 0x21 => some .pSend
  | 0x22 => some .pStatus
  | 0x23 => some .pPayload
  | _ => none

/-- The command type byte (30_encoding.md R73). -/
def CommandType.byte : CommandType → Byte
  | .read => 0x07#8
  | .write => 0x08#8
  | .eeprom => 0x09#8

/-- The legal command types; every other value is illegal (R74). -/
def CommandType.ofByte? (b : Byte) : Option CommandType :=
  match b.toNat with
  | 0x07 => some .read
  | 0x08 => some .write
  | 0x09 => some .eeprom
  | _ => none

/-- The instruction of a command frame, by its type. -/
def CommandType.instr (t : CommandType) (ah al : Byte) (data : List Byte) (crc : Word) : Instr :=
  match t with
  | .read => .cmdRead ah al data crc
  | .write => .cmdWrite ah al data crc
  | .eeprom => .cmdEeprom ah al data crc

/-- A byte string with a 16-bit big-endian count before it (R80: `lh ll f`, `nh nl d`). -/
def decodeCounted : List Byte → Except Reject (List Byte × List Byte)
  | h :: l :: bs =>
    match takeExact (be16 h l).toNat bs with
    | some r => .ok r
    | none => .error .truncated
  | _ => .error .truncated

/-- The operand bytes after a port opcode (30_encoding.md R80, R81, R84); the refusals are R92 (b) and (c). -/
def decodeOperands (o : Opcode) (bs : List Byte) : Except Reject (Instr × List Byte) :=
  match o, bs with
  | .cInit, rest => .ok (.cInit, rest)
  | .cBit, d :: rest =>
    match d.toNat with
    | 0x00 => .ok (.cBit false, rest)
    | 0x01 => .ok (.cBit true, rest)
    | _ => .error (.badBitOperand d)
  | .cByte, x :: rest => .ok (.cByte x, rest)
  | .cPoly, ph :: pl :: rest => .ok (.cPoly (be16 ph pl), rest)
  | .cRead, rest => .ok (.cRead, rest)
  | .fBuild, t :: ah :: al :: rest =>
    match decodeCounted rest with
    | .ok (data, rest) => .ok (.fBuild t ah al data, rest)
    | .error e => .error e
  | .pStart, rest =>
    match decodeCounted rest with
    | .ok (f, rest) => .ok (.pStart f, rest)
    | .error e => .error e
  | .pSend, rest =>
    match decodeCounted rest with
    | .ok (f, rest) => .ok (.pSend f, rest)
    | .error e => .error e
  | .pStatus, rest => .ok (.pStatus, rest)
  | .pPayload, rest => .ok (.pPayload, rest)
  | .cBit, [] => .error .truncated
  | .cByte, [] => .error .truncated
  | .cPoly, _ => .error .truncated
  | .fBuild, _ => .error .truncated

/-- One port operation and the bytes after it (R84). -/
def decodePort : List Byte → Except Reject (Instr × List Byte)
  | [] => .error .truncated
  | op :: bs =>
    match Opcode.ofByte? op with
    | some o => decodeOperands o bs
    | none => .error (.unassignedOpcode op)

/-- A payload of `n` bytes and the big-endian CRC trailer after it (20_memory.md R53). -/
def decodePayloadCrc (n : Byte) (bs : List Byte) : Except Reject (List Byte × Word × List Byte) :=
  match takeExact n.toNat bs with
  | some (data, ch :: cl :: rest) => .ok (data, be16 ch cl, rest)
  | _ => .error .truncated

/-- The body of a command frame, after its header (30_encoding.md R70). -/
def decodeCommandBody : List Byte → Except Reject (Instr × List Byte)
  | t :: n :: ah :: al :: bs =>
    match CommandType.ofByte? t with
    | none => .error (.illegalCommandType t)
    | some ty =>
      match decodePayloadCrc n bs with
      | .ok (data, crc, rest) => .ok (ty.instr ah al data crc, rest)
      | .error e => .error e
  | _ => .error .truncated

/-- One command frame (R70). The CRC is an operand; it is not checked here (log entry 11). -/
def decodeFrame : List Byte → Except Reject (Instr × List Byte)
  | h0 :: h1 :: bs => if h0 = 0x7E#8 ∧ h1 = 0x00#8 then decodeCommandBody bs else .error .notACommandHeader
  | _ => .error .truncated

/-- The part of a response after its markers (R75). -/
def decodeResponseBody : List Byte → Except Reject (Instr × List Byte)
  | n :: bs =>
    match decodePayloadCrc n bs with
    | .ok (data, crc, rest) => .ok (.response data crc, rest)
    | .error e => .error e
  | [] => .error .truncated

/-- One response (R75). The CRC is an operand; the parser checks it (42_response_parser.md R173). -/
def decodeResponse : List Byte → Except Reject (Instr × List Byte)
  | m0 :: m1 :: m2 :: bs =>
    if m0 = 0x02#8 ∧ m1 = 0x00#8 ∧ m2 = 0x00#8 then decodeResponseBody bs else .error .notAResponseMarker
  | _ => .error .truncated

/-- The decoder: one instruction from the front of a channel's bytes, and the rest of them. -/
def decode : Channel → List Byte → Except Reject (Instr × List Byte)
  | .port, bs => decodePort bs
  | .outbound, bs => decodeFrame bs
  | .inbound, bs => decodeResponse bs

/-! ## The encoder -/

/-- The channel an instruction's bytes stand on. -/
def Instr.channel : Instr → Channel
  | .cInit | .cBit _ | .cByte _ | .cPoly _ | .cRead => .port
  | .fBuild _ _ _ _ | .pStart _ | .pSend _ | .pStatus | .pPayload => .port
  | .cmdRead _ _ _ _ | .cmdWrite _ _ _ _ | .cmdEeprom _ _ _ _ => .outbound
  | .response _ _ => .inbound

/-- `lh ll f` (30_encoding.md R80). -/
def encodeCounted (bs : List Byte) : List Byte := beBytes (lenWord bs.length) ++ bs

/-- The bytes of a command frame with the trailer `crc` (R70). -/
def commandFrame (t ah al : Byte) (data : List Byte) (crc : Word) : List Byte :=
  [0x7E#8, 0x00#8, t, lenByte data.length, ah, al] ++ data ++ beBytes crc

/-- The bytes of a response with the trailer `crc` (R75). -/
def responseFrame (data : List Byte) (crc : Word) : List Byte :=
  [0x02#8, 0x00#8, 0x00#8, lenByte data.length] ++ data ++ beBytes crc

/-- The bytes of a well-formed instruction on its channel (R70, R75, R80). -/
def encode : Instr → List Byte
  | .cInit => [Opcode.cInit.byte]
  | .cBit d => [Opcode.cBit.byte, if d then 0x01#8 else 0x00#8]
  | .cByte x => [Opcode.cByte.byte, x]
  | .cPoly p => Opcode.cPoly.byte :: beBytes p
  | .cRead => [Opcode.cRead.byte]
  | .fBuild t ah al data => [Opcode.fBuild.byte, t, ah, al] ++ encodeCounted data
  | .pStart f => Opcode.pStart.byte :: encodeCounted f
  | .pSend f => Opcode.pSend.byte :: encodeCounted f
  | .pStatus => [Opcode.pStatus.byte]
  | .pPayload => [Opcode.pPayload.byte]
  | .cmdRead ah al data crc => commandFrame CommandType.read.byte ah al data crc
  | .cmdWrite ah al data crc => commandFrame CommandType.write.byte ah al data crc
  | .cmdEeprom ah al data crc => commandFrame CommandType.eeprom.byte ah al data crc
  | .response data crc => responseFrame data crc

/-! ## The opcode table's words -/

/-- The `n` bytes of `w`, the least significant first. -/
def bytesLe (n w : Nat) : List Byte := (List.range n).map fun k => BitVec.ofNat 8 (w / 256 ^ k)

/-- The channel of a table row's word. The table gives 24 bits to the wire rows alone, as ONE
number whose most significant byte comes first (`0x7E0007`, `0x020000`); DEDUCED, log entry 13. -/
def tableChannel (nbits w : Nat) : Channel :=
  if nbits = 24 ∧ w / 65536 = 0x7E then .outbound
  else if nbits = 24 ∧ w / 65536 = 0x02 then .inbound
  else .port

/-- The bytes of a table row's word as the hardware meets them, and zero operand bytes after them. -/
def tableBytes (nbits w : Nat) : List Byte :=
  let bs := bytesLe (nbits / 8) w
  (if tableChannel nbits w = .port then bs else bs.reverse) ++ List.replicate 8 0x00#8

/-- The instruction the decoder reads from a table row's word. -/
def decodeTableWord (nbits w : Nat) : Option Instr :=
  match decode (tableChannel nbits w) (tableBytes nbits w) with
  | .ok (i, _) => some i
  | .error _ => none

/-- The bytes of the row's instruction alone, without the zero bytes that lie after it. -/
def tableInstrBytes (nbits w : Nat) : List Byte :=
  let bs := tableBytes nbits w
  match decode (tableChannel nbits w) bs with
  | .ok (_, rest) => bs.take (bs.length - rest.length)
  | .error _ => bs

end Sys2Proof
end

