-- ==== Sys2Proof/Machine/FramerUnit.lean ====
section
/-! DEFINITION. Unit F: building a frame and sending one without reading a response (41_framer.md). -/

namespace Sys2Proof.Machine

/-- The bytes a command frame's CRC covers: `[cmdTypeByte, len(data)] ++ address ++ data` (30_encoding.md R72). -/
def crcInput (t ah al : Byte) (data : List Byte) : List Byte := [t, lenByte data.length, ah, al] ++ data

/-- `F_BUILD` as the pure function it is (R130, R131, R132): the type is checked first, then the length. -/
def buildFrame (t ah al : Byte) (data : List Byte) : Except ErrorKind (List Byte) :=
  match CommandType.ofByte? t with
  | none => .error .invalidCommandType
  | some _ =>
    if data.length > Config.maxPayload then .error .payloadTooLong
    else .ok (commandFrame t ah al data (crcDefault (crcInput t ah al data)))

/-- `F_BUILD t, addr, data` (R131): the frame with its length before it, or the error's code. -/
def execFBuild (t ah al : Byte) (data : List Byte) (s : State) : Host.Outcome State Fault Refusal :=
  match buildFrame t ah al data with
  | .ok frame => .next (s.reply .ok (beBytes (lenWord (data.length + 8)) ++ frame))
  | .error k => .next (s.reply k [])

/-- `P_SEND f` (R136, R137). -/
def execPSend (f : List Byte) (s : State) : Host.Outcome State Fault Refusal :=
  .next (s.transmit f)

end Sys2Proof.Machine
end

