-- ==== Sys2Proof/Machine/ParserUnit.lean ====
section
/-! DEFINITION. Unit P: starting an exchange, the internal read step, reading the outcome (42_response_parser.md). -/

namespace Sys2Proof.Machine

/-! ## Starting an exchange -/

/-- `P_START f` when no exchange is in progress (R161): flush, write, pause; the first failure ends it in
TRANSPORT_ERROR with code 0x03 (R163, R164); otherwise the exchange starts (R165). -/
def State.startExchange (f : List Byte) (s : State) : State :=
  let d := s.draw
  let t := s.nextDraw
  if d.flushFails then
    ((t.log .flushFail).goTo .transportError).reply .transportError []
  else
    let t := ((t.setRxq []).log .flush).log (writeEvent f d)
    if d.writeSent.isSome then
      (t.goTo .transportError).reply .transportError []
    else
      (((((t.log .delay).setLen 0x00#8).setCnt 0x00#8).setRxcrc 0x0000#16).goTo .expect02).reply .ok []

/-- `P_START f` (R161, R162). -/
def execPStart (f : List Byte) (s : State) : Host.Outcome State Fault Refusal :=
  if s.pstate.reading then .next (s.raiseFault .exchangeBusy) else .next (s.startExchange f)

/-! ## The read step -/

/-- A marker byte: the next state if it is the one expected, else NO_RESPONSE (R167 to R169). -/
def State.expectMarker (expected : Byte) (p : PState) (b : Byte) (s : State) : State :=
  s.goTo (if b = expected then p else .noResponse)

/-- READLENGTH (R170). -/
def State.takeLength (b : Byte) (s : State) : State :=
  ((s.setLen b).setCnt 0x00#8).goTo (if b = 0x00#8 then .readCrcHi else .readData)

/-- READDATA (R171): `CNT == LEN` is tested after the increment. -/
def State.takeData (b : Byte) (s : State) : State :=
  let t := (s.writePbuf s.cnt b).setCnt (s.cnt + 1#8)
  t.goTo (if t.cnt = t.len then .readCrcHi else .readData)

/-- READCRC_HI (R172). -/
def State.takeCrcHi (b : Byte) (s : State) : State :=
  (s.setRxcrc (be16 b (loByte s.rxcrc))).goTo .readCrcLo

/-- The CRC the parser recomputes: `crc16([0x00, LEN] ++ PBUF[0..LEN))`, always with 0x1021 (R173). -/
def State.responseCrc (s : State) : Word := crcDefault ([0x00#8, s.len] ++ s.pbufPart s.len)

/-- READCRC_LO (R173): verify the response. -/
def State.takeCrcLo (b : Byte) (s : State) : State :=
  let t := s.setRxcrc (be16 (hiByte s.rxcrc) b)
  t.goTo (if t.responseCrc = t.rxcrc then .done else .checksumError)

/-- Process one byte by the current state's rule (R166 to R173); in a quiescent state none is read (R179). -/
def State.processByte (b : Byte) (s : State) : State :=
  match s.pstate with
  | .expect02 => s.expectMarker 0x02#8 .expect00a b
  | .expect00a => s.expectMarker 0x00#8 .expect00b b
  | .expect00b => s.expectMarker 0x00#8 .readLength b
  | .readLength => s.takeLength b
  | .readData => s.takeData b
  | .readCrcHi => s.takeCrcHi b
  | .readCrcLo => s.takeCrcLo b
  | .idle | .done | .checksumError | .noResponse | .transportError => s

/-- Where a timeout leads: NO_RESPONSE in a header state (R175), TRANSPORT_ERROR in a body state (R176). -/
def PState.onTimeout (p : PState) : PState := if p.header then .noResponse else .transportError

/-- One read under the transport's answer `a`, in a reading state (R166). A failure is possible always; a
byte when `RXQ` has one; a timeout when `RXQ` is empty and the state's parameter is true; else the parser
holds (R207). -/
def State.readAnswered (a : ReadAnswer) (s : State) : State :=
  match a, s.rxq with
  | .fail, _ => (s.log .readFail).goTo .transportError
  | .byte, b :: rest => ((s.setRxq rest).log (.read b)).processByte b
  | .timeout, b :: rest => ((s.setRxq rest).log (.read b)).processByte b
  | .timeout, [] => if s.timeoutEnabled then (s.log .readTimeout).goTo s.pstate.onTimeout else s
  | .byte, [] => s

/-- The internal read step of the core (R166); in a quiescent state no read is issued (R179). -/
def State.readStep (s : State) : State :=
  if s.pstate.reading then s.nextDraw.readAnswered s.draw.read else s

/-! ## Reading the outcome -/

/-- `P_STATUS` (R180). -/
def execPStatus (s : State) : Host.Outcome State Fault Refusal :=
  .next (s.reply .ok [s.pstate.status])

/-- `P_PAYLOAD` (R181): the payload in DONE only (R182). -/
def execPPayload (s : State) : Host.Outcome State Fault Refusal :=
  match s.pstate with
  | .done => .next (s.reply .ok (s.len :: s.pbufPart s.len))
  | .noResponse => .next (s.reply .noResponse [])
  | .checksumError => .next (s.reply .checksumError [])
  | .transportError => .next (s.reply .transportError [])
  | .idle => .next (s.reply .noResult [])
  | .expect02 | .expect00a | .expect00b => .next (s.reply .noResult [])
  | .readLength | .readData | .readCrcHi | .readCrcLo => .next (s.reply .noResult [])

end Sys2Proof.Machine
end

