-- ==== Sys2Proof/Machine/WireFrames.lean ====
section
/-! DEFINITION. The wire frames of spec/opcode_table.json as instructions. A command frame is "a complete outbound
byte sequence sent to the device" (00_scope.md glossary): it goes to the transport as `P_SEND` of its bytes does
(log entry 11). A response is the device's: its bytes arrive at the tail of `RXQ` (20_memory.md R69), where the
read steps of the parser find them (log entry 12). -/

namespace Sys2Proof.Machine

/-- `CMD_READ` (30_encoding.md R70, R73). -/
def execCmdRead (ah al : Byte) (data : List Byte) (crc : Word) (s : State) : Host.Outcome State Fault Refusal :=
  .next (s.transmit (commandFrame CommandType.read.byte ah al data crc))

/-- `CMD_WRITE` (R70, R73). -/
def execCmdWrite (ah al : Byte) (data : List Byte) (crc : Word) (s : State) : Host.Outcome State Fault Refusal :=
  .next (s.transmit (commandFrame CommandType.write.byte ah al data crc))

/-- `CMD_EEPROM` (R70, R73). -/
def execCmdEeprom (ah al : Byte) (data : List Byte) (crc : Word) (s : State) : Host.Outcome State Fault Refusal :=
  .next (s.transmit (commandFrame CommandType.eeprom.byte ah al data crc))

/-- `RESPONSE` (R75). -/
def execResponse (data : List Byte) (crc : Word) (s : State) : Host.Outcome State Fault Refusal :=
  .next (s.receive (responseFrame data crc))

end Sys2Proof.Machine
end

