-- ==== Sys2Proof/Machine/Dispatch.lean ====
section
/-! DEFINITION. One arm for each instruction. -/

namespace Sys2Proof.Machine

def exec (i : Instr) (s : State) : Host.Outcome State Fault Refusal :=
  match i with
  | .cInit => Sys2Proof.Machine.execCInit s
  | .cBit d => Sys2Proof.Machine.execCBit d s
  | .cByte x => Sys2Proof.Machine.execCByte x s
  | .cPoly p => Sys2Proof.Machine.execCPoly p s
  | .cRead => Sys2Proof.Machine.execCRead s
  | .fBuild t ah al data => Sys2Proof.Machine.execFBuild t ah al data s
  | .pStart f => Sys2Proof.Machine.execPStart f s
  | .pSend f => Sys2Proof.Machine.execPSend f s
  | .pStatus => Sys2Proof.Machine.execPStatus s
  | .pPayload => Sys2Proof.Machine.execPPayload s
  | .cmdRead ah al data crc => Sys2Proof.Machine.execCmdRead ah al data crc s
  | .cmdWrite ah al data crc => Sys2Proof.Machine.execCmdWrite ah al data crc s
  | .cmdEeprom ah al data crc => Sys2Proof.Machine.execCmdEeprom ah al data crc s
  | .response data crc => Sys2Proof.Machine.execResponse data crc s

end Sys2Proof.Machine
end

