-- ==== Sys2Proof/Machine/Fetch.lean ====
section
/-! DEFINITION. Which action the next step takes: the agenda's head chooses the agent, and the bytes it hands over
are decoded here. There is no stored program and no program counter (10_state.md R36). -/

namespace Sys2Proof.Machine

/-- What a step does. -/
inductive Action where
  /-- run the decoded instruction at this state -/
  | run (i : Instr) (s : State)
  /-- a step that runs no instruction -/
  | become (s : State)
  /-- the step stops -/
  | stop (r : Refusal)
deriving DecidableEq, Repr

/-- The host's move: one operation from the port's front (30_encoding.md R84). Bytes the decoder rejects are
refused (R92). An empty port is no operation. What is left behind an executed operation waits, truncated or not, and
is looked at only when the next host move's bytes stand after it: DESIGN CHOICE, log entry 3. -/
def State.takePort (s : State) : Action :=
  match s.port with
  | [] => .become s
  | _ :: _ =>
    match decode .port s.port with
    | .ok (i, rest) => .run i { s with port := rest }
    | .error _ => .become s.refuse

/-- The device's move: whatever it sends arrives in `RXQ` (20_memory.md R69); bytes that are exactly one
response frame are the instruction RESPONSE, whose effect is the same. -/
def State.takeInbound (bs : List Byte) (s : State) : Action :=
  match decode .inbound bs with
  | .ok (i, []) => .run i s
  | _ => .become (s.receive bs)

/-- A bare command frame: exactly one, or the step stops (log entry 20). -/
def State.takeOutbound (bs : List Byte) (s : State) : Action :=
  match decode .outbound bs with
  | .ok (i, []) => .run i s
  | _ => .stop .notACommandFrame

/-- The action of one move. -/
def State.takeMove (m : Move) (s : State) : Action :=
  match m with
  | .host bs => State.takePort { s with port := s.port ++ bs }
  | .read => .become s.readStep
  | .device bs => s.takeInbound bs
  | .transmit bs => s.takeOutbound bs
  | .reset => .become s.resetEvent

/-- The next action. With the agenda used up no other agent moves, and the core's read step, where one is
enabled, is what is left to happen (weak fairness, 70_reset_and_hazards.md R243; log entry 1). -/
def State.nextAction (s : State) : Action :=
  match s.agenda with
  | [] => .become s.readStep
  | m :: rest => State.takeMove m { s with agenda := rest }

/-- The move that hands `bytes` over on a channel. -/
def moveOn (c : Channel) (bytes : List Byte) : Move :=
  match c with
  | .port => .host bytes
  | .outbound => .transmit bytes
  | .inbound => .device bytes

/-- The state whose next action is to take `bytes` from channel `c`: the move is put at the agenda's head, and
for the port the bytes that wait there are removed (log entry 15). -/
def State.place (c : Channel) (bytes : List Byte) (s : State) : State :=
  { s with
    port := if c = .port then [] else s.port
    agenda := moveOn c bytes :: s.agenda }

end Sys2Proof.Machine
end

