-- ==== Sys2Proof/Machine/Step.lean ====
section
/-! DEFINITION. One step of the machine, and the placing of a table word where the step fetches it. -/

namespace Sys2Proof.Machine

/-- One step. A faulted state takes no further step (60_exceptions.md R205). -/
def step (s : State) : Host.Outcome State Fault Refusal :=
  match s.fault with
  | some f => .fault f
  | none =>
    match s.nextAction with
    | .run i t => exec i t
    | .become t => .next t
    | .stop r => .refused r

/-- `s` with the table word's instruction placed on its channel, as the agenda's next move. -/
def State.withFetchWord (s : State) (nbits w : Nat) : State :=
  s.place (tableChannel nbits w) (tableInstrBytes nbits w)

end Sys2Proof.Machine
end

