-- ==== Sys2Proof/Machine/Pseudo.lean ====
section
/-! DEFINITION. What the host does with the core: operations one after another, and the pseudo-operations of
30_encoding.md R86 to R88. The host knows what an operation returned, and nothing else of the core. -/

namespace Sys2Proof.Machine

/-! ## Steps and operations in sequence -/

/-- `k` steps, stopping at the first fault or refusal. -/
def runSteps : Nat → State → Host.Outcome State Fault Refusal
  | 0, s => .next s
  | k + 1, s =>
    match step s with
    | .next t => runSteps k t
    | .fault f => .fault f
    | .refused r => .refused r

/-- Go on with `f` from the next state; a stop stays. -/
def andThen {α : Type} (o : Host.Outcome State Fault Refusal) (f : State → Host.Outcome α Fault Refusal) :
    Host.Outcome α Fault Refusal :=
  match o with
  | .next s => f s
  | .fault e => .fault e
  | .refused r => .refused r

/-- The host issues one operation: a faulted state takes no further step (60_exceptions.md R205). -/
def issue (i : Instr) (s : State) : Host.Outcome State Fault Refusal :=
  match s.fault with
  | some f => .fault f
  | none => exec i s

/-- The host issues operations one after another, with no other agent's step between them, though 20_memory.md R63
leaves that open: DESIGN CHOICE, log entry 22. -/
def issueAll : List Instr → State → Host.Outcome State Fault Refusal
  | [], s => .next s
  | i :: is, s => andThen (issue i s) (issueAll is)

/-- What the last operation returned. -/
def State.lastReturn (s : State) : List Byte := s.out.getLastD []

/-! ## The pseudo-operations -/

/-- `CRC16 p, [b0, ...]` (R86). -/
def pseudoCrc16 (p : Word) (bs : List Byte) : List Instr :=
  [.cPoly p, .cInit] ++ bs.map Instr.cByte ++ [.cRead]

/-- `CRC16 [b0, ...]`: "The form without `p` uses 0x1021" (R86). -/
def pseudoCrc16Default (bs : List Byte) : List Instr := pseudoCrc16 Config.crcPolyDefault bs

/-- `SENDCMD type, addr, [data]` (R88): nothing is sent where F_BUILD fails. -/
def pseudoSendCmd (t ah al : Byte) (data : List Byte) : List Instr :=
  .fBuild t ah al data ::
    match buildFrame t ah al data with
    | .ok frame => [.pSend frame]
    | .error _ => []

/-- How far an `XCHG` has come. -/
inductive Progress where
  /-- the expansion has ended -/
  | finished (s : State)
  /-- `P_STATUS` has not yet shown a quiescent code -/
  | polling (s : State)
deriving DecidableEq, Repr

/-- The frame in the return string of an `F_BUILD` that ended with code 0x00 (41_framer.md R131). -/
def builtFrame : List Byte → Option (List Byte)
  | code :: _ :: _ :: frame => if code = 0x00#8 then some frame else none
  | _ => none

/-- Whether the return string of a `P_STATUS` shows a quiescent code: 0 or 8 to 11 (10_state.md R25, R27). -/
def showsQuiescent : List Byte → Bool
  | [_, status] => decide (status.toNat = 0 ∨ (8 ≤ status.toNat ∧ status.toNat ≤ 11))
  | _ => false

/-- `P_STATUS` repeated until STATUS shows a quiescent code, then `P_PAYLOAD` (R87). Before each poll the machine
takes some steps, in which the device sends and the parser reads: how many is open (20_memory.md R63), so
`gaps` says it, one number for each poll. No step falls between the last `P_STATUS` and `P_PAYLOAD`:
DESIGN CHOICE, log entry 22. -/
def pollUntilQuiescent : List Nat → State → Host.Outcome Progress Fault Refusal
  | [], s => .next (.polling s)
  | gap :: gaps, s =>
    andThen (andThen (runSteps gap s) (issue .pStatus)) fun t =>
      if showsQuiescent t.lastReturn then andThen (issue .pPayload t) (fun u => .next (.finished u))
      else pollUntilQuiescent gaps t

/-- `XCHG type, addr, [data]` (R87): it stops with the code of an F_BUILD that fails, and nothing is sent. No step of
another agent falls between `F_BUILD` and `P_START`, though R63 leaves that open: DESIGN CHOICE, log entry 22. -/
def pseudoXchg (gaps : List Nat) (t ah al : Byte) (data : List Byte) (s : State) :
    Host.Outcome Progress Fault Refusal :=
  andThen (issue (.fBuild t ah al data) s) fun u =>
    match builtFrame u.lastReturn with
    | some frame => andThen (issue (.pStart frame) u) (pollUntilQuiescent gaps)
    | none => .next (.finished u)

end Sys2Proof.Machine
end

