-- ==== Sys2Proof/Safety.lean ====
section
/-! DEFINITION. The terms claims use: runs, the end of a run, the literal CRC of the source, and the invariant
that every step keeps. -/

namespace Sys2Proof.Machine

/-! ## Runs -/

/-- The meanings of instructions one after another, with nothing between them and without regard to FAULT. What a
host's sequence of operations does is `issueAll`. -/
def execAll : List Instr → State → Host.Outcome State Fault Refusal
  | [], s => .next s
  | i :: is, s =>
    match exec i s with
    | .next t => execAll is t
    | .fault f => .fault f
    | .refused r => .refused r

/-- Whether a move issues an operation (20_memory.md R57, 30_encoding.md R80): bytes for the port, or a bare command
frame (log entry 11). The other moves are the core's, the device's and the reset's. -/
def Move.issues : Move → Bool
  | .host bs => !bs.isEmpty
  | .transmit _ => true
  | .read | .device _ | .reset => false

/-- The host has no further operation to issue: none waits on the port, and none is still to come. -/
def State.HostDone (s : State) : Prop := s.port = [] ∧ ∀ m ∈ s.agenda, m.issues = false

/-- An internal step is enabled: in a reading state the transport may always fail the read, whatever RXQ holds
(42_response_parser.md R166); in a quiescent state no read is issued (R179). -/
def State.internalStepEnabled (s : State) : Bool := s.pstate.reading

/-- A run is over (70_reset_and_hazards.md R243). The device may still send, and a reset may still come. -/
def State.Over (s : State) : Prop := s.HostDone ∧ s.pstate.reading = false ∧ s.internalStepEnabled = false

/-- A run is good (R243). -/
def State.Good (s : State) : Prop := s.Over ∧ s.fault = none ∧ s.refused = false

/-- A draw without a failure and without a timeout. -/
def TransportSucceeds (d : Draw) : Prop := d.flushFails = false ∧ d.writeSent = none ∧ d.read = .byte

/-! ## The CRC procedure as the source writes it, on an unbounded register (10_state.md R22) -/

/-- One literal step: `register *= 2`; `register & 0x10000`; the input bit. Nothing is masked. -/
def literalStep (r : Nat) (d : Bool) (p : Nat) : Nat :=
  let r := r * 2
  let r := if r.testBit 16 then r ^^^ p else r
  if d then r ^^^ p else r

/-- The literal register after all bits of all bytes; the source returns it masked with 0xFFFF. -/
def literalRegister (s : List Byte) (p : Nat) : Nat :=
  s.foldl (fun r x => (bitsMsbFirst x).foldl (fun r d => literalStep r d p) r) 0

/-- One shift of the textbook bitwise CRC (40_crc_engine.md R106). -/
def textbookShift (r p : Word) : Word := if r.msb then (r <<< 1) ^^^ p else r <<< 1

/-- The textbook's byte step: XOR the byte into the high half, then shift eight times (R106). -/
def textbookByte (r : Word) (x : Byte) (p : Word) : Word :=
  (List.range 8).foldl (fun r _ => textbookShift r p) (r ^^^ (x.setWidth 16 <<< 8))

/-! ## What the history says of an exchange -/

/-- The response bytes the current exchange has read, as PSTATE, LEN, CNT, PBUF and RXCRC tell them
(10_state.md R26, 42_response_parser.md R174). -/
def State.received (s : State) : List Byte :=
  let header := [0x02#8, 0x00#8, 0x00#8]
  match s.pstate with
  | .expect02 => []
  | .expect00a => [0x02#8]
  | .expect00b => [0x02#8, 0x00#8]
  | .readLength => header
  | .readData => header ++ [s.len] ++ s.pbufPart s.cnt
  | .readCrcHi => header ++ [s.len] ++ s.pbufPart s.len
  | .readCrcLo => header ++ [s.len] ++ s.pbufPart s.len ++ [hiByte s.rxcrc]
  | .done | .checksumError => header ++ [s.len] ++ s.pbufPart s.len ++ beBytes s.rxcrc
  | .idle | .noResponse | .transportError => []

/-- The events of one exchange whose reads gave `bs` (20_memory.md R64). -/
def exchangeEvents (f bs : List Byte) : List Event := [.flush, .write f, .delay] ++ bs.map Event.read

/-- Events that `P_SEND` may append in a quiescent state (41_framer.md R136). -/
def Event.IsSend : Event → Prop
  | .write _ | .writeFail _ => True
  | .flush | .flushFail | .delay => False
  | .read _ | .readTimeout | .readFail => False

/-- Header bytes that end in a mismatch at byte 0, 1 or 2 (42_response_parser.md R167 to R169, R178). -/
def HeaderMismatch (bs : List Byte) : Prop :=
  (∃ b, bs = [b] ∧ b ≠ 0x02#8) ∨ (∃ b, bs = [0x02#8, b] ∧ b ≠ 0x00#8) ∨
    (∃ b, bs = [0x02#8, 0x00#8, b] ∧ b ≠ 0x00#8)

/-- A header that stopped with a timeout after 0, 1 or 2 good bytes (R175). -/
def HeaderSoFar (bs : List Byte) : Prop := bs = [] ∨ bs = [0x02#8] ∨ bs = [0x02#8, 0x00#8]

/-- The events that record a TransportError (60_exceptions.md R201). -/
def Event.IsFailure : Event → Prop
  | .flushFail | .writeFail _ | .readFail | .readTimeout => True
  | .flush | .write _ | .delay => False
  | .read _ => False

/-- What `H` ends with, by PSTATE: the current or last exchange, then what was sent after it. -/
def State.HistoryOk (s : State) : Prop :=
  match s.pstate with
  | .idle => True
  | .transportError => ∃ pre e post, s.hist = pre ++ [e] ++ post ∧ e.IsFailure ∧ ∀ x ∈ post, x.IsSend
  | .noResponse => ∃ pre f bs post, s.hist = pre ++ exchangeEvents f bs ++ post ∧
      ((HeaderMismatch bs ∧ ∀ x ∈ post, x.IsSend) ∨
       (HeaderSoFar bs ∧ ∃ sends, post = Event.readTimeout :: sends ∧ ∀ x ∈ sends, x.IsSend))
  | .done | .checksumError => ∃ pre f post, s.hist = pre ++ exchangeEvents f s.received ++ post ∧
      ∀ x ∈ post, x.IsSend
  | .expect02 | .expect00a | .expect00b => ∃ pre f, s.hist = pre ++ exchangeEvents f s.received
  | .readLength | .readData | .readCrcHi | .readCrcLo => ∃ pre f, s.hist = pre ++ exchangeEvents f s.received

/-- `CNT` against `LEN`, by PSTATE (10_state.md R29, 42_response_parser.md R170, R171). -/
def State.CountOk (s : State) : Prop :=
  match s.pstate with
  | .expect02 | .expect00a | .expect00b | .readLength => s.cnt = 0x00#8
  | .readData => s.cnt.toNat < s.len.toNat
  | .readCrcHi | .readCrcLo | .done | .checksumError => s.cnt = s.len
  | .idle | .noResponse | .transportError => True

/-- The verdict is the one R173 gives. -/
def State.VerdictOk (s : State) : Prop :=
  match s.pstate with
  | .done => s.responseCrc = s.rxcrc
  | .checksumError => s.responseCrc ≠ s.rxcrc
  | .idle | .noResponse | .transportError => True
  | .expect02 | .expect00a | .expect00b => True
  | .readLength | .readData | .readCrcHi | .readCrcLo => True

/-- The invariant of the machine. -/
def State.Inv (s : State) : Prop := s.CountOk ∧ s.VerdictOk ∧ s.HistoryOk

/-! ## Differences between two states -/

/-- The same state but for unit C's registers. -/
def State.withUnitC (c p : Word) (s : State) : State := { s with crc := c, poly := p }

/-- The same state but for the payload buffer. -/
def State.withPbuf (b : Vector Byte Config.pbufSize) (s : State) : State := { s with pbuf := b }

/-- The operations of unit C (00_scope.md R2). -/
def ofUnitC : Instr → Bool
  | .cInit | .cBit _ | .cByte _ | .cPoly _ | .cRead => true
  | .fBuild _ _ _ _ | .pStart _ | .pSend _ | .pStatus | .pPayload => false
  | .cmdRead _ _ _ _ | .cmdWrite _ _ _ _ | .cmdEeprom _ _ _ _ | .response _ _ => false

/-- The instructions that use the transport (20_memory.md R57). -/
def writesToTransport : Instr → Bool
  | .pStart _ | .pSend _ | .cmdRead _ _ _ _ | .cmdWrite _ _ _ _ | .cmdEeprom _ _ _ _ => true
  | .cInit | .cBit _ | .cByte _ | .cPoly _ | .cRead => false
  | .fBuild _ _ _ _ | .pStatus | .pPayload | .response _ _ => false

end Sys2Proof.Machine
end

