-- ==== Sys2Proof/Certificates/Slice0/Obligations.lean ====
section
/-! DEFINITION. The statements for the provers. -/

open Sys2Proof Sys2Proof.Machine

/-! ## Encodings -/

/-- Words written out from 30_encoding.md R70, R75, R80 and the vectors of 95_test_vectors.md. -/
def Obligations.SpecWordsDecodeToTheirInstructions : Prop :=
  decode .port [0x01] = .ok (.cInit, []) ∧
  decode .port [0x02, 0x01] = .ok (.cBit true, []) ∧
  decode .port [0x04, 0x80, 0x05] = .ok (.cPoly 0x8005#16, []) ∧
  decode .port [0x10, 0x08, 0x00, 0x06, 0x00, 0x01, 0x32] = .ok (.fBuild 0x08 0x00 0x06 [0x32], []) ∧
  decode .port [0x21, 0x00, 0x01, 0x00] = .ok (.pSend [0x00], []) ∧
  decode .outbound [0x7E, 0x00, 0x08, 0x01, 0x00, 0x06, 0x32, 0xC8, 0x2E]
    = .ok (.cmdWrite 0x00 0x06 [0x32] 0xC82E#16, []) ∧
  decode .inbound [0x02, 0x00, 0x00, 0x01, 0x32, 0x25, 0x20] = .ok (.response [0x32] 0x2520#16, [])

/-- R80's table, row by row, with every operand: the bytes of an operation, whatever follows them, decode to that
operation with those operands, and the next operation starts at the byte after its last one (R84). -/
def Obligations.PortStringsDecodeAsTheTableSays : Prop :=
  ∀ rest : List Byte,
    decode .port (0x01 :: rest) = .ok (.cInit, rest) ∧
    decode .port (0x02 :: 0x00 :: rest) = .ok (.cBit false, rest) ∧
    decode .port (0x02 :: 0x01 :: rest) = .ok (.cBit true, rest) ∧
    (∀ x, decode .port (0x03 :: x :: rest) = .ok (.cByte x, rest)) ∧
    (∀ ph pl : Byte, decode .port (0x04 :: ph :: pl :: rest) = .ok (.cPoly (ph ++ pl), rest)) ∧
    decode .port (0x05 :: rest) = .ok (.cRead, rest) ∧
    (∀ (t ah al nh nl : Byte) (d : List Byte), d.length = 256 * nh.toNat + nl.toNat →
      decode .port ([0x10, t, ah, al, nh, nl] ++ d ++ rest) = .ok (.fBuild t ah al d, rest)) ∧
    (∀ (lh ll : Byte) (f : List Byte), f.length = 256 * lh.toNat + ll.toNat →
      decode .port ([0x20, lh, ll] ++ f ++ rest) = .ok (.pStart f, rest) ∧
      decode .port ([0x21, lh, ll] ++ f ++ rest) = .ok (.pSend f, rest)) ∧
    decode .port (0x22 :: rest) = .ok (.pStatus, rest) ∧
    decode .port (0x23 :: rest) = .ok (.pPayload, rest)

/-- No bit of an encoding is dropped: every well-formed instruction, with every operand at every value its
encoding admits, is read back from its own bytes, whatever follows them (R70, R75, R80, R81, R84). -/
def Obligations.EncodeThenDecodeGivesTheInstruction : Prop :=
  ∀ (i : Instr) (rest : List Byte), i.wellFormed = true → decode i.channel (encode i ++ rest) = .ok (i, rest)

/-- The other direction: whatever a channel's decoder accepts is the encoding of the instruction it gives, that
instruction is well formed, and it stands on that channel. -/
def Obligations.AcceptedBytesAreTheEncoding : Prop :=
  ∀ (c : Channel) (bs rest : List Byte) (i : Instr), decode c bs = .ok (i, rest) →
    bs = encode i ++ rest ∧ i.wellFormed = true ∧ i.channel = c

/-- R83: the opcode map is exactly the ten opcodes; every other opcode is refused as unassigned, whatever
follows it, and none of the ten is. -/
def Obligations.OpcodeMapIsExactlyTheTen : Prop :=
  ∀ (op : Byte) (bs : List Byte),
    decode .port (op :: bs) = .error (.unassignedOpcode op) ↔
      op ∉ ([0x01, 0x02, 0x03, 0x04, 0x05, 0x10, 0x20, 0x21, 0x22, 0x23] : List Byte)

/-- R92 (b), (c): a `C_BIT` operand other than 0 and 1 is refused; every string that is cut short of its
operation's end is refused as truncated. -/
def Obligations.BadBitAndTruncatedStringsAreRejected : Prop :=
  (∀ (d : Byte) (bs : List Byte), d ≠ 0x00 → d ≠ 0x01 →
    decode .port (0x02 :: d :: bs) = .error (.badBitOperand d)) ∧
  (∀ (i : Instr) (k : Nat), i.wellFormed = true → i.channel = .port → k < (encode i).length →
    decode .port ((encode i).take k) = .error .truncated)

/-! ## The step -/

/-- When the bytes a move hands over decode to an instruction, the step is `exec` of it, at the state without
that move and (on the port) without the instruction's bytes. -/
def Obligations.StepRunsTheDecodedInstruction : Prop :=
  ∀ (s : State) (ag : List Move) (bs rest : List Byte) (i : Instr), s.fault = none →
    (s.agenda = .host bs :: ag → decode .port (s.port ++ bs) = .ok (i, rest) →
      step s = exec i { s with agenda := ag, port := rest }) ∧
    (s.agenda = .transmit bs :: ag → decode .outbound bs = .ok (i, []) →
      step s = exec i { s with agenda := ag }) ∧
    (s.agenda = .device bs :: ag → decode .inbound bs = .ok (i, []) →
      step s = exec i { s with agenda := ag })

/-- Every well-formed instruction, placed on its channel, is what the next step runs. -/
def Obligations.PlacedInstructionRunsNext : Prop :=
  ∀ (s : State) (i : Instr), s.fault = none → i.wellFormed = true →
    step (s.place i.channel (encode i)) = exec i (if i.channel = .port then { s with port := [] } else s)

/-- R92 and R206: a refused input sets REFUSED and changes nothing else of the core, appends nothing to `H` and
returns nothing. That the whole refused string leaves the port is the model's choice (log entry 3). -/
def Obligations.RefusedInputOnlySetsRefused : Prop :=
  ∀ (s : State) (ag : List Move) (bs : List Byte) (e : Reject), s.fault = none → s.agenda = .host bs :: ag →
    s.port ++ bs ≠ [] → decode .port (s.port ++ bs) = .error e →
      step s = .next { s with agenda := ag, port := [], refused := true }

/-- A faulted state takes no further step, however many are asked for (R205). -/
def Obligations.FaultedStateTakesNoStep : Prop :=
  ∀ (s : State) (f : Fault) (k : Nat), s.fault = some f → runSteps (k + 1) s = .fault f

/-- R243: when a run is over, no step brings the host an answer or the transport an event, the run stays over,
and a good one stays good; what the device sends then waits in RXQ, of which R243 says nothing. With no move of
any agent left, a step answers the same state: that is the model's choice (log entry 1). -/
def Obligations.OverRunStaysAsItIs : Prop :=
  ∀ s : State, s.Over → s.fault = none → ∀ k, ∃ t, runSteps k s = .next t ∧
    t.Over ∧ t.fault = none ∧ t.out = s.out ∧ t.hist = s.hist ∧ (s.Good → t.Good) ∧
    (s.agenda = [] → t = s)

/-! ## Unit C -/

/-- `C_INIT` (R110), `C_POLY` (R113) and `C_READ` (R114): the encodings of the two without operands, and the next
states the rules give; nothing else changes, in any PSTATE. -/
def Obligations.CrcRegistersAreSetAndRead : Prop :=
  (∀ rest, decode .port (0x01 :: rest) = .ok (.cInit, rest) ∧ decode .port (0x05 :: rest) = .ok (.cRead, rest)) ∧
  ∀ s : State,
    exec .cInit s = .next { s with crc := 0x0000, out := s.out ++ [[0x00]] } ∧
    (∀ p, exec (.cPoly p) s = .next { s with poly := p, out := s.out ++ [[0x00]] }) ∧
    exec .cRead s = .next { s with out := s.out ++ [[0x00, s.crc.extractLsb' 8 8, s.crc.extractLsb' 0 8]] }

/-- `C_BIT` (R111) in the form of R102: shift left, and the polynomial once when bit 15 and the input bit differ. -/
def Obligations.CBitShiftsAndAppliesThePolynomial : Prop :=
  ∀ (s : State) (d : Bool),
    exec (.cBit d) s = .next { s with
      crc := (s.crc <<< 1) ^^^ (if (s.crc.getLsbD 15 ^^ d) = true then s.poly else 0x0000)
      out := s.out ++ [[0x00]] }

/-- `C_BYTE x` (R112): it completes, with the CRC that eight `C_BIT` operations on the bits of `x`, the most
significant first, leave, and changes nothing else (R111: "leave the same `CRC` as one `C_BYTE x`"). -/
def Obligations.CByteIsEightCBits : Prop :=
  ∀ (s : State) (x : Byte), ∃ c u,
    exec (.cByte x) s = .next { s with crc := c, out := s.out ++ [[0x00]] } ∧
    execAll [.cBit (x.getLsbD 7), .cBit (x.getLsbD 6), .cBit (x.getLsbD 5), .cBit (x.getLsbD 4),
      .cBit (x.getLsbD 3), .cBit (x.getLsbD 2), .cBit (x.getLsbD 1), .cBit (x.getLsbD 0)] s = .next u ∧
    u = { s with crc := c, out := s.out ++ List.replicate 8 [0x00] }

/-- R22 and R107: the source's register, never masked and with a polynomial of any width, has `crc16` with the
polynomial's low 16 bits as its low 16 bits, for every input. -/
def Obligations.UnmaskedRegisterHasCrc16AsItsLowBits : Prop :=
  ∀ (s : List Byte) (p : Nat), literalRegister s p % 65536 = (crc16 s (BitVec.ofNat 16 p)).toNat

/-- R106: the literal byte step equals the textbook's byte step, for every register, byte and polynomial. -/
def Obligations.ByteStepEqualsTheTextbookForm : Prop :=
  ∀ (r : Word) (x : Byte) (p : Word), crcByte r x p = textbookByte r x p

/-- R105 (a) to (e): the empty sequence, leading zero bytes, linearity, a single 0x01, the zero polynomial. -/
def Obligations.Crc16Laws : Prop :=
  ∀ p : Word,
    crc16 [] p = 0x0000 ∧
    crcStep 0x0000 false p = 0x0000 ∧
    (∀ s, crc16 (0x00 :: s) p = crc16 s p) ∧
    (∀ a b : List Byte, a.length = b.length →
      crc16 (List.zipWith (· ^^^ ·) a b) p = crc16 a p ^^^ crc16 b p) ∧
    crc16 [0x01] p = p ∧
    (∀ s, crc16 s 0x0000 = 0x0000)

/-- R115: `C_POLY p`, `C_INIT` and one `C_BYTE` a byte leave `crc16(s, p)` in CRC; with CRC and POLY as reset
leaves them, the `C_BYTE`s alone leave `crc16(s)`. -/
def Obligations.FeedingBytesComputesCrc16 : Prop :=
  ∀ (s : State) (bs : List Byte),
    (∀ p, execAll ([.cPoly p, .cInit] ++ bs.map Instr.cByte) s = .next { s with
      poly := p
      crc := crc16 bs p
      out := s.out ++ List.replicate (bs.length + 2) [0x00] }) ∧
    (s.crc = State.reset.crc → s.poly = State.reset.poly →
      execAll (bs.map Instr.cByte) s = .next { s with
        crc := crcDefault bs
        out := s.out ++ List.replicate bs.length [0x00] })

/-- R86: the pseudo-operation `CRC16 p, bs` ends with a `C_READ` that returns `crc16(bs, p)`, and leaves `p` in
POLY; the form without `p` does so with 0x1021. That no step of another agent falls between the operations, so that
nothing else changes, is the model's choice (log entry 22). -/
def Obligations.PseudoCrc16ReturnsCrc16 : Prop :=
  ∀ (s : State) (bs : List Byte), s.fault = none →
    (∀ p : Word,
      issueAll (pseudoCrc16 p bs) s = .next { s with
        poly := p
        crc := crc16 bs p
        out := s.out ++ List.replicate (bs.length + 2) [0x00] ++ [0x00 :: beBytes (crc16 bs p)] }) ∧
    issueAll (pseudoCrc16Default bs) s = .next { s with
      poly := 0x1021
      crc := crc16 bs 0x1021
      out := s.out ++ List.replicate (bs.length + 2) [0x00] ++ [0x00 :: beBytes (crc16 bs 0x1021)] }

/-- R21 and R23: CRC is written only by `C_INIT`, `C_BIT`, `C_BYTE` and reset, POLY only by `C_POLY` and reset. -/
def Obligations.OnlyTheirOperationsWriteCrcAndPoly : Prop :=
  ∀ s t : State, step s = .next t →
    (t.crc = s.crc ∨ (∃ ag, s.agenda = .reset :: ag) ∨
      ∃ i u, s.nextAction = .run i u ∧ (i = .cInit ∨ (∃ d, i = .cBit d) ∨ ∃ x, i = .cByte x)) ∧
    (t.poly = s.poly ∨ (∃ ag, s.agenda = .reset :: ag) ∨
      ∃ i u, s.nextAction = .run i u ∧ ∃ p, i = .cPoly p)

/-- R100: what unit C's registers hold changes nothing that the other instructions and the read step do, and a
unit C operation changes nothing but those registers and its own return string. -/
def Obligations.UnitCAndExchangesAreIndependent : Prop :=
  (∀ (i : Instr) (s t : State) (c p : Word), ofUnitC i = false → exec i s = .next t →
    exec i (s.withUnitC c p) = .next (t.withUnitC c p)) ∧
  (∀ (s : State) (c p : Word), (s.withUnitC c p).readStep = s.readStep.withUnitC c p) ∧
  (∀ (i : Instr) (s t : State), ofUnitC i = true → exec i s = .next t →
    { t with crc := s.crc, poly := s.poly, out := s.out } = s)

/-! ## Unit F -/

/-- `F_BUILD` (R131, R132, R135): the frame with its length for a legal type and at most 255 bytes; 0x04 for an
illegal type, whatever the length; 0x05 for a legal type and more than 255 bytes. Nothing but the return string
changes, `H` included. -/
def Obligations.FBuildReturnsTheFrameOrItsError : Prop :=
  ∀ (s : State) (t ah al : Byte) (data : List Byte),
    (∀ (nh nl : Byte) (rest : List Byte), data.length = 256 * nh.toNat + nl.toNat →
      decode .port ([0x10, t, ah, al, nh, nl] ++ data ++ rest) = .ok (.fBuild t ah al data, rest)) ∧
    (t ∈ ([0x07, 0x08, 0x09] : List Byte) → data.length ≤ 255 →
      exec (.fBuild t ah al data) s = .next { s with
        out := s.out ++ [[0x00] ++ beBytes (BitVec.ofNat 16 (data.length + 8)) ++ [0x7E, 0x00] ++
          ([t, BitVec.ofNat 8 data.length, ah, al] ++ data) ++
          beBytes (crc16 ([t, BitVec.ofNat 8 data.length, ah, al] ++ data) 0x1021)] }) ∧
    (t ∉ ([0x07, 0x08, 0x09] : List Byte) →
      exec (.fBuild t ah al data) s = .next { s with out := s.out ++ [[0x04]] }) ∧
    (t ∈ ([0x07, 0x08, 0x09] : List Byte) → data.length > 255 →
      exec (.fBuild t ah al data) s = .next { s with out := s.out ++ [[0x05]] })

/-- R134 (a) to (e), of every frame that `F_BUILD` returns with code 0x00. -/
def Obligations.BuiltFrameHasTheStatedProperties : Prop :=
  ∀ (s u : State) (t ah al : Byte) (data : List Byte) (lh ll : Byte) (frame : List Byte),
    exec (.fBuild t ah al data) s = .next u →
    u.out = s.out ++ [0x00 :: lh :: ll :: frame] →
      frame.take 2 = [0x7E, 0x00] ∧
      frame[3]? = some (BitVec.ofNat 8 data.length) ∧
      frame.drop (frame.length - 2) = beBytes (crcDefault ((frame.drop 2).dropLast.dropLast)) ∧
      frame.length = data.length + 8 ∧ (be16 lh ll).toNat = frame.length ∧
      frame[2]? = some t ∧ frame[4]? = some ah ∧ frame[5]? = some al ∧
      (frame.drop 6).take data.length = data

/-- The frame `F_BUILD` returns decodes, on the wire, to the command frame of that type with that address and
payload, and nothing is left over (R70, R73, R131). -/
def Obligations.BuiltFrameDecodesToItsCommand : Prop :=
  ∀ (ty : CommandType) (ah al : Byte) (data : List Byte), data.length ≤ 255 →
    ∃ frame crc, buildFrame ty.byte ah al data = .ok frame ∧
      decode .outbound frame = .ok (ty.instr ah al data crc, []) ∧
      crc = crcDefault ((frame.drop 2).dropLast.dropLast)

/-- `P_SEND` in a quiescent state (R136): one `Write`, or one `WriteFail` of what was sent; PSTATE and RXQ stay.
The draw is the transport's, and one is used up (log entry 2). -/
def Obligations.PSendWritesAndReadsNothing : Prop :=
  ∀ (s : State) (f : List Byte), s.pstate.reading = false →
    (s.draw.writeSent = none →
      exec (.pSend f) s = .next { s with
        hist := s.hist ++ [.write f], out := s.out ++ [[0x00]], tape := s.tape.tail, drawn := s.drawn + 1 }) ∧
    (∀ k, s.draw.writeSent = some k →
      exec (.pSend f) s = .next { s with
        hist := s.hist ++ [.writeFail (f.take k)], out := s.out ++ [[0x03]],
        tape := s.tape.tail, drawn := s.drawn + 1 })

/-- A bare command frame, in a quiescent state, is written to the transport byte for byte as R70 lays it out,
with the CRC it carries. That it runs as `P_SEND` of its bytes is the model's choice (log entry 11). -/
def Obligations.CommandFramesAreWrittenToTheTransport : Prop :=
  ∀ (s : State) (ah al : Byte) (data : List Byte) (crc : Word), s.pstate.reading = false →
    ∀ x ∈ [(Instr.cmdRead ah al data crc, (0x07 : Byte)), (Instr.cmdWrite ah al data crc, 0x08),
        (Instr.cmdEeprom ah al data crc, 0x09)],
      let frame := [0x7E, 0x00, x.2, BitVec.ofNat 8 data.length, ah, al] ++ data ++ beBytes crc
      (s.draw.writeSent = none →
        exec x.1 s = .next { s with
          hist := s.hist ++ [.write frame], out := s.out ++ [[0x00]],
          tape := s.tape.tail, drawn := s.drawn + 1 }) ∧
      (∀ k, s.draw.writeSent = some k →
        exec x.1 s = .next { s with
          hist := s.hist ++ [.writeFail (frame.take k)], out := s.out ++ [[0x03]],
          tape := s.tape.tail, drawn := s.drawn + 1 })

/-- A response arrives at the tail of RXQ, laid out as R75 says; nothing else changes. That the whole response is
one device move is the model's choice (log entry 12). -/
def Obligations.ResponseArrivesInTheQueue : Prop :=
  ∀ (s : State) (data : List Byte) (crc : Word),
    exec (.response data crc) s = .next { s with
      rxq := s.rxq ++ ([0x02, 0x00, 0x00, BitVec.ofNat 8 data.length] ++ data ++ beBytes crc) }

/-- R88 and R87. `SENDCMD` of a legal command sends exactly the built frame. `XCHG` of one issues `P_START` of
that frame, polls `P_STATUS` while the state is a reading one, and issues `P_PAYLOAD` as soon as it is quiescent; a
busy `P_START` stops it with the fault (R205). An illegal command ends both after `F_BUILD`'s code, and nothing is
sent. How many steps the machine takes before each poll is open: `gaps`. That it takes none between the other
operations of the expansions is the model's choice (log entry 22). -/
def Obligations.SendCmdSendsTheBuiltFrameOrNothing : Prop :=
  ∀ (s : State) (t ah al : Byte) (data : List Byte), s.fault = none →
    (∀ frame, buildFrame t ah al data = .ok frame →
      (s.pstate.reading = false → s.draw.writeSent = none →
        ∃ r, issueAll (pseudoSendCmd t ah al data) s = .next { s with
          hist := s.hist ++ [.write frame], out := s.out ++ [0x00 :: r, [0x00]],
          tape := s.tape.tail, drawn := s.drawn + 1 }) ∧
      (∀ gaps, s.pstate.reading = false →
        ∃ u v, exec (.fBuild t ah al data) s = .next u ∧ exec (.pStart frame) u = .next v ∧ v.fault = none ∧
          pseudoXchg gaps t ah al data s = pollUntilQuiescent gaps v) ∧
      (∀ gap gaps, s.pstate.reading = true →
        pseudoXchg (gap :: gaps) t ah al data s = .fault .exchangeBusy)) ∧
    (∀ k gaps, buildFrame t ah al data = .error k →
      issueAll (pseudoSendCmd t ah al data) s = .next { s with out := s.out ++ [[k.code]] } ∧
      pseudoXchg gaps t ah al data s = .next (.finished { s with out := s.out ++ [[k.code]] })) ∧
    (∀ gap gaps u, runSteps gap s = .next u → u.fault = none →
      (u.pstate.reading = true →
        pollUntilQuiescent (gap :: gaps) s
          = pollUntilQuiescent gaps { u with out := u.out ++ [[0x00, u.pstate.status]] }) ∧
      (u.pstate.reading = false →
        ∃ v, exec .pPayload { u with out := u.out ++ [[0x00, u.pstate.status]] } = .next v ∧
          pollUntilQuiescent (gap :: gaps) s = .next (.finished v)))

/-! ## Unit P: starting an exchange and reading the outcome -/

/-- `P_START` in a quiescent state, with no transport failure (R161, R165). -/
def Obligations.PStartStartsAnExchange : Prop :=
  ∀ (s : State) (f : List Byte), s.pstate.reading = false →
    s.draw.flushFails = false → s.draw.writeSent = none →
      exec (.pStart f) s = .next { s with
        rxq := [], hist := s.hist ++ [.flush, .write f, .delay], len := 0x00, cnt := 0x00, rxcrc := 0x0000
        pstate := .expect02, out := s.out ++ [[0x00]], tape := s.tape.tail, drawn := s.drawn + 1 }

/-- R163, R164 and R209: a failed flush writes nothing; a failed write takes no pause; both end in
TRANSPORT_ERROR with code 0x03, and the flush failure is decided first. -/
def Obligations.PStartFailuresEndInTransportError : Prop :=
  ∀ (s : State) (f : List Byte), s.pstate.reading = false →
    (s.draw.flushFails = true →
      exec (.pStart f) s = .next { s with
        hist := s.hist ++ [.flushFail], pstate := .transportError, out := s.out ++ [[0x03]],
        tape := s.tape.tail, drawn := s.drawn + 1 }) ∧
    (∀ k, s.draw.flushFails = false → s.draw.writeSent = some k →
      exec (.pStart f) s = .next { s with
        rxq := [], hist := s.hist ++ [.flush, .writeFail (f.take k)], pstate := .transportError,
        out := s.out ++ [[0x03]], tape := s.tape.tail, drawn := s.drawn + 1 })

/-- R137, R162, R205: `P_START` and `P_SEND` during an exchange set FAULT to ExchangeBusy, change nothing else
and return nothing. -/
def Obligations.BusyOperationsFault : Prop :=
  ∀ (s : State) (f : List Byte), s.pstate.reading = true →
    exec (.pStart f) s = .next { s with fault := some .exchangeBusy } ∧
    exec (.pSend f) s = .next { s with fault := some .exchangeBusy }

/-- The bare command frames do the same during an exchange (log entry 11). -/
def Obligations.BusyCommandFramesFault : Prop :=
  ∀ (s : State) (ah al : Byte) (data : List Byte) (crc : Word), s.pstate.reading = true →
    ∀ i ∈ [Instr.cmdRead ah al data crc, .cmdWrite ah al data crc, .cmdEeprom ah al data crc],
      exec i s = .next { s with fault := some .exchangeBusy }

/-- R205: ExchangeBusy is marked only by an operation that writes to the transport, only during an exchange; and
no step clears the mark. R205 names `P_START` and `P_SEND`; that the bare command frames are among those operations
is the model's choice (log entry 11). That no step clears it holds of a reset event too, against the FAULT of R230:
log entry 7. -/
def Obligations.OnlyBusyOperationsSetTheFault : Prop :=
  ∀ s t : State, step s = .next t →
    s.fault = none ∧
    (t.fault ≠ none → s.pstate.reading = true ∧ ∃ i u, s.nextAction = .run i u ∧ writesToTransport i = true)

/-- `P_STATUS` (R180) returns 0x00 and the STATUS byte of R35, with the codes of R25, and changes nothing else. -/
def Obligations.PStatusReturnsTheStateCode : Prop :=
  (∀ s : State, exec .pStatus s = .next { s with out := s.out ++ [[0x00, s.pstate.status]] }) ∧
  [PState.idle, .expect02, .expect00a, .expect00b, .readLength, .readData, .readCrcHi, .readCrcLo, .done,
    .checksumError, .noResponse, .transportError].map PState.status
    = ([0, 1, 2, 3, 4, 5, 6, 7, 8, 9, 10, 11] : List Byte)

/-- `P_PAYLOAD` (R181): its encoding; the payload in DONE, the outcome's code in the other terminal states, NoResult
otherwise; nothing else changes. -/
def Obligations.PPayloadReturnsTheOutcome : Prop :=
  (∀ rest, decode .port (0x23 :: rest) = .ok (.pPayload, rest)) ∧
  ∀ s : State,
    (s.pstate = .done →
      exec .pPayload s = .next { s with out := s.out ++ [0x00 :: s.len :: s.pbuf.toList.take s.len.toNat] }) ∧
    (s.pstate = .noResponse → exec .pPayload s = .next { s with out := s.out ++ [[0x01]] }) ∧
    (s.pstate = .checksumError → exec .pPayload s = .next { s with out := s.out ++ [[0x02]] }) ∧
    (s.pstate = .transportError → exec .pPayload s = .next { s with out := s.out ++ [[0x03]] }) ∧
    (s.pstate = .idle ∨ s.pstate.reading = true → exec .pPayload s = .next { s with out := s.out ++ [[0x06]] })

/-- R61: `C_READ`, `P_STATUS` and `P_PAYLOAD` have no side effect, and a repetition returns the same bytes. -/
def Obligations.ReadOperationsAreRepeatable : Prop :=
  ∀ s : State, ∀ i ∈ [Instr.cRead, .pStatus, .pPayload], ∃ r,
    exec i s = .next { s with out := s.out ++ [r] } ∧
    ∀ k, execAll (List.replicate k i) s = .next { s with out := s.out ++ List.replicate k r }

/-- R182: outside DONE no instruction returns a byte of PBUF, nor lets one influence anything: replace the buffer
by any other, and the instruction does the same. -/
def Obligations.NoPayloadLeaksOutsideDone : Prop :=
  ∀ (i : Instr) (s t : State) (b : Vector Byte Config.pbufSize), s.pstate ≠ .done → exec i s = .next t →
    exec i (s.withPbuf b) = .next (t.withPbuf b)

/-! ## Unit P: the read step -/

/-- R167, R168, R169: the three marker bytes. A step that reads takes exactly one byte from RXQ and records it. -/
def Obligations.MarkerBytesAreChecked : Prop :=
  ∀ (s : State) (ag : List Move) (b : Byte) (q : List Byte), s.fault = none → s.agenda = .read :: ag →
    s.rxq = b :: q → s.draw.read ≠ .fail →
      ∀ x ∈ [(PState.expect02, (0x02 : Byte), PState.expect00a), (.expect00a, 0x00, .expect00b),
          (.expect00b, 0x00, .readLength)],
        s.pstate = x.1 →
        step s = .next { s with
          pstate := if b = x.2.1 then x.2.2 else .noResponse
          rxq := q, hist := s.hist ++ [.read b], agenda := ag, tape := s.tape.tail, drawn := s.drawn + 1 }

/-- R170: READLENGTH. -/
def Obligations.LengthByteIsTaken : Prop :=
  ∀ (s : State) (ag : List Move) (b : Byte) (q : List Byte), s.fault = none → s.agenda = .read :: ag →
    s.rxq = b :: q → s.draw.read ≠ .fail → s.pstate = .readLength →
      step s = .next { s with
        len := b, cnt := 0x00, pstate := if b = 0x00 then .readCrcHi else .readData
        rxq := q, hist := s.hist ++ [.read b], agenda := ag, tape := s.tape.tail, drawn := s.drawn + 1 }

/-- R171: READDATA, in the states the invariant leaves (`CNT < LEN`). -/
def Obligations.DataByteGoesToTheBuffer : Prop :=
  ∀ (s : State) (ag : List Move) (b : Byte) (q : List Byte), s.fault = none → s.agenda = .read :: ag →
    s.rxq = b :: q → s.draw.read ≠ .fail → s.pstate = .readData → s.CountOk →
      ∃ buf : Vector Byte Config.pbufSize, buf.toList = s.pbuf.toList.set s.cnt.toNat b ∧
        step s = .next { s with
          pbuf := buf, cnt := s.cnt + 1, pstate := if s.cnt.toNat + 1 = s.len.toNat then .readCrcHi else .readData
          rxq := q, hist := s.hist ++ [.read b], agenda := ag, tape := s.tape.tail, drawn := s.drawn + 1 }

/-- R172 and R173: the two CRC bytes, and the verdict over `[0x00, LEN] ++ PBUF[0..LEN)` with 0x1021. -/
def Obligations.CrcBytesAreTakenAndVerified : Prop :=
  ∀ (s : State) (ag : List Move) (b : Byte) (q : List Byte), s.fault = none → s.agenda = .read :: ag →
    s.rxq = b :: q → s.draw.read ≠ .fail →
      (s.pstate = .readCrcHi →
        step s = .next { s with
          rxcrc := b ++ s.rxcrc.extractLsb' 0 8, pstate := .readCrcLo
          rxq := q, hist := s.hist ++ [.read b], agenda := ag, tape := s.tape.tail, drawn := s.drawn + 1 }) ∧
      (s.pstate = .readCrcLo →
        step s = .next { s with
          rxcrc := s.rxcrc.extractLsb' 8 8 ++ b
          pstate := if crc16 ([0x00, s.len] ++ s.pbuf.toList.take s.len.toNat) 0x1021
            = (s.rxcrc.extractLsb' 8 8 ++ b : BitVec 16) then .done else .checksumError
          rxq := q, hist := s.hist ++ [.read b], agenda := ag, tape := s.tape.tail, drawn := s.drawn + 1 })

/-- R175 and R176: a timeout of an empty RXQ, where the state's parameter enables it. -/
def Obligations.TimeoutsEndTheExchange : Prop :=
  ∀ (s : State) (ag : List Move), s.fault = none → s.agenda = .read :: ag → s.rxq = [] → s.draw.read = .timeout →
    (s.pstate ∈ [PState.expect02, .expect00a, .expect00b] → s.params.headerTimeout = true →
      step s = .next { s with
        pstate := .noResponse, hist := s.hist ++ [.readTimeout]
        agenda := ag, tape := s.tape.tail, drawn := s.drawn + 1 }) ∧
    (s.pstate ∈ [PState.readLength, .readData, .readCrcHi, .readCrcLo] → s.params.bodyTimeout = true →
      step s = .next { s with
        pstate := .transportError, hist := s.hist ++ [.readTimeout]
        agenda := ag, tape := s.tape.tail, drawn := s.drawn + 1 })

/-- R177: a read failure, whether RXQ has a byte or not; no byte is consumed. -/
def Obligations.ReadFailureEndsTheExchange : Prop :=
  ∀ (s : State) (ag : List Move), s.fault = none → s.agenda = .read :: ag → s.pstate.reading = true →
    s.draw.read = .fail →
      step s = .next { s with
        pstate := .transportError, hist := s.hist ++ [.readFail]
        agenda := ag, tape := s.tape.tail, drawn := s.drawn + 1 }

/-- R207: with RXQ empty, no failure and no timeout enabled in the state, the parser holds, for as many read
steps as are taken; no timeout is invented. That each read step uses a draw up is the model's (log entry 21),
and so is that an empty agenda makes the core read (log entry 1). -/
def Obligations.EmptyQueueHoldsTheParser : Prop :=
  ∀ (k : Nat) (s : State), s.fault = none → s.agenda = [] → s.rxq = [] → s.pstate.reading = true →
    k ≤ s.tape.length → (∀ d ∈ s.tape, d.read ≠ .fail) →
    ((s.pstate ∈ [PState.expect02, .expect00a, .expect00b] → s.params.headerTimeout = false) ∧
     (s.pstate ∈ [PState.readLength, .readData, .readCrcHi, .readCrcLo] → s.params.bodyTimeout = false)) →
      runSteps k s = .next { s with tape := s.tape.drop k, drawn := s.drawn + k }

/-- R179: in a quiescent state the parser issues no read. R69: in every state, a reading one too, whatever bytes the
device sends (part of a response, or none of one) are appended to the tail of RXQ, and nothing else changes. The
moves are the model's form (log entry 1). -/
def Obligations.QuiescentParserReadsNothing : Prop :=
  ∀ (s : State) (ag : List Move), s.fault = none →
    (s.pstate.reading = false → s.agenda = .read :: ag → step s = .next { s with agenda := ag }) ∧
    (∀ bs, s.agenda = .device bs :: ag → step s = .next { s with agenda := ag, rxq := s.rxq ++ bs })

/-- R183: a terminal state stays until the next `P_START` or reset. -/
def Obligations.TerminalStateStaysUntilStartOrReset : Prop :=
  ∀ s t : State, s.pstate.terminal = true → step s = .next t →
    t.pstate = s.pstate ∨ (∃ ag, s.agenda = .reset :: ag) ∨ ∃ f u, s.nextAction = .run (.pStart f) u

/-! ## Reset -/

/-- R38: the values the spec gives for reset. -/
def Obligations.ResetStateHoldsTheSpecValues : Prop :=
  State.reset.crc = 0x0000 ∧ State.reset.poly = 0x1021 ∧ State.reset.pstate = .idle ∧ State.reset.len = 0x00 ∧
  State.reset.cnt = 0x00 ∧ State.reset.rxcrc = 0x0000 ∧ State.reset.fault = none ∧ State.reset.refused = false ∧
  State.reset.hist = []

/-- R230, R231: a reset event in any PSTATE, in the middle of an exchange too: the reset values, PBUF any value,
`H` and RXQ unchanged, nothing returned. A faulted state takes no step at all (log entry 7). -/
def Obligations.ResetEventSetsTheResetValues : Prop :=
  ∀ (s : State) (ag : List Move), s.fault = none → s.agenda = .reset :: ag →
    ∃ buf : Vector Byte Config.pbufSize, step s = .next { s with
      crc := 0x0000, poly := 0x1021, pstate := .idle, len := 0x00, cnt := 0x00, rxcrc := 0x0000, pbuf := buf
      fault := none, refused := false, agenda := ag, drawn := s.drawn + 1 }

/-! ## Rules of the whole machine -/

/-- The invariant holds right after reset. -/
def Obligations.ResetMeetsTheInvariant : Prop := State.reset.Inv

/-- The invariant: `CNT` is below `LEN` in READDATA and equal to it after; DONE and CHECKSUM_ERROR carry the
verdict of R173; `H` ends with the exchange in the order of R64, whose reads gave exactly the response bytes that
PSTATE, LEN, CNT, PBUF and RXCRC say (R174), or the failure R201 names. Every step keeps it, from every state
that meets it. -/
def Obligations.EveryStepKeepsTheInvariant : Prop :=
  ∀ s t : State, s.Inv → step s = .next t → t.Inv

/-- R178: an exchange that ended in DONE or CHECKSUM_ERROR has consumed exactly `LEN + 6` bytes; one that ended in
NO_RESPONSE has consumed 1, 2 or 3 bytes with the mismatch at the last, or timed out after 0, 1 or 2 right ones. The
reads are the ones after the exchange's `Delay`; after them, and after the timeout where there is one, `H` holds
nothing but sends, so the exchange is the last one. -/
def Obligations.NoExchangeReadsTooMuch : Prop :=
  ∀ s : State, s.Inv →
    (s.pstate = .done ∨ s.pstate = .checksumError →
      ∃ pre f bs post, s.hist = pre ++ exchangeEvents f bs ++ post ∧ bs.length = s.len.toNat + 6 ∧
        ∀ x ∈ post, x.IsSend) ∧
    (s.pstate = .noResponse →
      ∃ pre f bs post, s.hist = pre ++ exchangeEvents f bs ++ post ∧
        (((bs.length = 1 ∨ bs.length = 2 ∨ bs.length = 3) ∧ HeaderMismatch bs ∧ ∀ x ∈ post, x.IsSend) ∨
         (bs.length ≤ 2 ∧ HeaderSoFar bs ∧
            ∃ sends, post = Event.readTimeout :: sends ∧ ∀ x ∈ sends, x.IsSend)))

/-- R184, the round trip: `P_START`, then a response with the right CRC, then one read step for each of its
`n + 6` bytes, with no transport failure and no timeout, end in DONE, and `P_PAYLOAD` returns the payload. Bytes
the device sends after the response stay in RXQ. That the response comes in one move is log entry 12, and that an
empty agenda makes the core read is log entry 1. -/
def Obligations.ResponseRoundTripYieldsThePayload : Prop :=
  ∀ (s : State) (f data extra : List Byte), data.length ≤ 255 → s.fault = none → s.pstate.reading = false →
    s.agenda = [] → data.length + 7 ≤ s.tape.length → (∀ d ∈ s.tape, TransportSucceeds d) →
      ∃ u v t, exec (.pStart f) s = .next u ∧
        exec (.response data (crcDefault ([0x00, BitVec.ofNat 8 data.length] ++ data))) u = .next v ∧
        runSteps (data.length + 6) { v with rxq := v.rxq ++ extra } = .next t ∧
        t.pstate = .done ∧ t.rxq = extra ∧
        exec .pPayload t = .next { t with out := s.out ++ [[0x00], [0x00, BitVec.ofNat 8 data.length] ++ data] }

/-- R185: the same exchange with any other CRC ends in CHECKSUM_ERROR, and `P_PAYLOAD` returns 0x02 alone.
The response in one move is log entry 12; the reads of an empty agenda are log entry 1. -/
def Obligations.CorruptedCrcNeverYieldsAPayload : Prop :=
  ∀ (s : State) (f data extra : List Byte) (crc : Word), data.length ≤ 255 → s.fault = none →
    s.pstate.reading = false → s.agenda = [] → data.length + 7 ≤ s.tape.length →
    (∀ d ∈ s.tape, TransportSucceeds d) → crc ≠ crcDefault ([0x00, BitVec.ofNat 8 data.length] ++ data) →
      ∃ u v t, exec (.pStart f) s = .next u ∧ exec (.response data crc) u = .next v ∧
        runSteps (data.length + 6) { v with rxq := v.rxq ++ extra } = .next t ∧
        t.pstate = .checksumError ∧ t.rxq = extra ∧
        exec .pPayload t = .next { t with out := s.out ++ [[0x00], [0x02]] }

/-- An exchange ends: with a byte in RXQ for every read and no transport failure, 261 read steps (the longest
response, R76) are enough, from every reading state the invariant admits. That an empty agenda makes the core
read is log entry 1. -/
def Obligations.ExchangeEndsWithinTheLongestResponse : Prop :=
  ∀ s : State, s.Inv → s.fault = none → s.agenda = [] → s.pstate.reading = true →
    261 ≤ s.rxq.length → 261 ≤ s.tape.length → (∀ d ∈ s.tape, TransportSucceeds d) →
      ∃ k t, k ≤ 261 ∧ runSteps k s = .next t ∧ t.pstate.reading = false ∧ t.rxq.length + k = s.rxq.length

/-- R33 and R135: `H` is append-only, one step appends at most three events, and an instruction that does not use
the transport appends none. -/
def Obligations.HistoryOnlyGrows : Prop :=
  (∀ s t : State, step s = .next t → ∃ es, t.hist = s.hist ++ es ∧ es.length ≤ 3) ∧
  (∀ (i : Instr) (s t : State), writesToTransport i = false → exec i s = .next t → t.hist = s.hist)

/-- R58, R59, R69: RXQ changes only by a read that removes its head and records it, by a flush that empties it and
is recorded, and by bytes appended to its tail. -/
def Obligations.QueueChangesOnlyByReadFlushAndArrival : Prop :=
  ∀ s t : State, step s = .next t →
    t.rxq = s.rxq ∨
    (∃ b, s.rxq = b :: t.rxq ∧ t.hist = s.hist ++ [.read b] ∧ s.pstate.reading = true) ∨
    (t.rxq = [] ∧ ∃ es, t.hist = s.hist ++ .flush :: es) ∨
    (∃ bs ag, s.agenda = .device bs :: ag ∧ t.rxq = s.rxq ++ bs ∧ t.hist = s.hist)

/-- R30 and R51: PBUF is written only in READDATA, at the index `CNT`, with the byte read; a reset event leaves any
value in it (R38). -/
def Obligations.BufferIsWrittenOnlyByReadData : Prop :=
  ∀ s t : State, step s = .next t →
    t.pbuf = s.pbuf ∨ (∃ ag, s.agenda = .reset :: ag) ∨
    (s.pstate = .readData ∧ ∃ b, s.rxq = b :: t.rxq ∧ t.pbuf.toList = s.pbuf.toList.set s.cnt.toNat b)

/-- R200: every return string begins with one of the seven codes, and one step returns at most one. -/
def Obligations.ReturnCodesAreTheSevenKinds : Prop :=
  ∀ s t : State, step s = .next t →
    t.out = s.out ∨ ∃ c r, t.out = s.out ++ [c :: r] ∧
      c ∈ ([0x00, 0x01, 0x02, 0x03, 0x04, 0x05, 0x06] : List Byte)

/-- R92, R206: REFUSED is set only by a port input the decoder rejects, and only a reset event clears it (log
entry 7 for the clearing). -/
def Obligations.RefusedIsSetOnlyByTheDecoder : Prop :=
  ∀ s t : State, step s = .next t →
    (s.refused = true → t.refused = true ∨ ∃ ag, s.agenda = .reset :: ag) ∧
    (s.refused = false → t.refused = true →
      ∃ bs ag e, s.agenda = .host bs :: ag ∧ decode .port (s.port ++ bs) = .error e)

/-- R40: no step writes the configuration. -/
def Obligations.ConfigurationNeverChanges : Prop :=
  ∀ s t : State, step s = .next t → t.params = s.params
end

