-- ==== Sys2Proof/Laws/Crc.lean ====
section
/-! SUPPORT. Lemmas of the CRC functions. -/

namespace Sys2Proof.Machine

/-- The bit step in the form of 40_crc_engine.md R102. -/
theorem crcStep_eq (r : Word) (d : Bool) (p : Word) :
    crcStep r d p = (r <<< 1) ^^^ (if (r.getLsbD 15 ^^ d) = true then p else 0#16) := by
  have h16 : (r.setWidth 17 <<< 1).getLsbD 16 = r.getLsbD 15 := by simp
  have hs : (r.setWidth 17 <<< 1).setWidth 16 = r <<< 1 := by
    ext i hi
    simp only [BitVec.getElem_setWidth, BitVec.getLsbD_shiftLeft, BitVec.getElem_shiftLeft, BitVec.getLsbD_setWidth]
    by_cases h : i < 1
    · simp [h]
    · simp [h, show i < 17 by omega, show i - 1 < 17 by omega, BitVec.getLsbD_eq_getElem (show i - 1 < 16 by omega)]
  unfold crcStep
  simp only [h16]
  cases hr : r.getLsbD 15 <;> cases d <;> simp [hs, BitVec.setWidth_xor]

/-- The bit step is linear in the register and the input bit (R105 (c)). -/
theorem crcStep_xor (r r' : Word) (d d' : Bool) (p : Word) :
    crcStep (r ^^^ r') (d ^^ d') p = crcStep r d p ^^^ crcStep r' d' p := by
  simp only [crcStep_eq, BitVec.getLsbD_xor]
  cases r.getLsbD 15 <;> cases r'.getLsbD 15 <;> cases d <;> cases d' <;>
    simp [BitVec.shiftLeft_xor_distrib] <;> ext i hi <;> simp <;> grind

@[simp] theorem crc16_nil (p : Word) : crc16 [] p = Config.crcInit := rfl

/-- Feeding one more byte continues the computation. -/
theorem crc16_append_byte (s : List Byte) (x : Byte) (p : Word) :
    crc16 (s ++ [x]) p = crcByte (crc16 s p) x p := by
  simp [crc16]

end Sys2Proof.Machine
end

