-- ==== Sys2Proof/Laws/Operands.lean ====
section
/-! SUPPORT. Lemmas of the operand forms. -/

namespace Sys2Proof

/-- The bits of a joined value: the low byte's, then the high byte's. -/
theorem getLsbD_be16 (h l : Byte) (i : Nat) :
    (be16 h l).getLsbD i = if i < 8 then l.getLsbD i else h.getLsbD (i - 8) :=
  BitVec.getLsbD_append

@[simp] theorem hiByte_be16 (h l : Byte) : hiByte (be16 h l) = h := by
  apply BitVec.eq_of_getLsbD_eq
  intro i hi
  simp [hiByte, getLsbD_be16, hi]

@[simp] theorem loByte_be16 (h l : Byte) : loByte (be16 h l) = l := by
  apply BitVec.eq_of_getLsbD_eq
  intro i hi
  simp [loByte, getLsbD_be16, hi]

@[simp] theorem be16_hiByte_loByte (v : Word) : be16 (hiByte v) (loByte v) = v := by
  apply BitVec.eq_of_getLsbD_eq
  intro i hi
  simp only [getLsbD_be16, hiByte, loByte, BitVec.getLsbD_extractLsb']
  split
  · simp_all
  · rw [show 8 + (i - 8) = i by omega]
    simp [show i - 8 < 8 by omega]

@[simp] theorem beBytes_length (v : Word) : (beBytes v).length = 2 := rfl

theorem lenByte_toNat {n : Nat} (h : n ≤ Config.maxPayload) : (lenByte n).toNat = n := by
  simp only [lenByte, BitVec.toNat_ofNat]
  simp only [Config.maxPayload] at h
  omega

theorem lenWord_toNat {n : Nat} (h : n ≤ Config.maxPortFrame) : (lenWord n).toNat = n := by
  simp only [lenWord, BitVec.toNat_ofNat]
  simp only [Config.maxPortFrame] at h
  omega

@[simp] theorem lenByte_of_toNat (b : Byte) : lenByte b.toNat = b := by
  simp [lenByte]

@[simp] theorem lenWord_of_toNat (w : Word) : lenWord w.toNat = w := by
  simp [lenWord]

/-- A counted run is found again, whatever follows it. -/
@[simp] theorem takeExact_append (a b : List Byte) : takeExact a.length (a ++ b) = some (a, b) := by
  simp [takeExact]

/-- All that `takeExact` can give. -/
theorem takeExact_eq_some {n : Nat} {bs a b : List Byte} (h : takeExact n bs = some (a, b)) :
    bs = a ++ b ∧ a.length = n := by
  unfold takeExact at h
  split at h
  · rename_i hn
    simp only [Option.some.injEq, Prod.mk.injEq] at h
    obtain ⟨rfl, rfl⟩ := h
    simp [hn]
  · cases h

/-- A run is too short exactly when there are fewer bytes than asked for. -/
theorem takeExact_eq_none {n : Nat} {bs : List Byte} : takeExact n bs = none ↔ bs.length < n := by
  unfold takeExact
  split <;> simp <;> omega

end Sys2Proof
end

