-- ==== Sys2Proof/Laws/Decode.lean ====
section
/-! SUPPORT. Lemmas of the decoder's parts: each part reads back what the encoder wrote, and accepts nothing else. -/

namespace Sys2Proof

@[simp] theorem Opcode.ofByte?_byte (o : Opcode) : Opcode.ofByte? o.byte = some o := by
  cases o <;> rfl

theorem Opcode.byte_of_ofByte? {b : Byte} {o : Opcode} (h : Opcode.ofByte? b = some o) : o.byte = b := by
  apply BitVec.eq_of_toNat_eq
  unfold Opcode.ofByte? at h
  split at h <;> cases h <;> simp_all [Opcode.byte]

@[simp] theorem CommandType.ofByte?_byte (t : CommandType) : CommandType.ofByte? t.byte = some t := by
  cases t <;> rfl

theorem CommandType.byte_of_ofByte? {b : Byte} {t : CommandType} (h : CommandType.ofByte? b = some t) :
    t.byte = b := by
  apply BitVec.eq_of_toNat_eq
  unfold CommandType.ofByte? at h
  split at h <;> cases h <;> simp_all [CommandType.byte]

/-- The bytes of a command frame's instruction. -/
theorem CommandType.encode_instr (t : CommandType) (ah al : Byte) (data : List Byte) (crc : Word) :
    encode (t.instr ah al data crc) = commandFrame t.byte ah al data crc := by
  cases t <;> rfl

theorem decodeCounted_encodeCounted (bs rest : List Byte) (h : bs.length ≤ Config.maxPortFrame) :
    decodeCounted (encodeCounted bs ++ rest) = .ok (bs, rest) := by
  simp [decodeCounted, encodeCounted, beBytes, lenWord_toNat h]

theorem decodeCounted_eq_ok {bs f rest : List Byte} (h : decodeCounted bs = .ok (f, rest)) :
    bs = encodeCounted f ++ rest ∧ f.length ≤ Config.maxPortFrame := by
  unfold decodeCounted at h
  split at h
  · rename_i hb l tl
    split at h
    · rename_i r hr
      cases h
      obtain ⟨rfl, hlen⟩ := takeExact_eq_some hr
      have hlt := (be16 hb l).isLt
      refine ⟨by simp [encodeCounted, hlen, beBytes], ?_⟩
      simp only [Config.maxPortFrame]
      omega
    · cases h
  · cases h

/-- The only way a counted run is rejected. -/
theorem decodeCounted_eq_error {bs : List Byte} {e : Reject} (h : decodeCounted bs = .error e) : e = .truncated := by
  unfold decodeCounted at h
  split at h
  · split at h <;> cases h
    rfl
  · cases h
    rfl

theorem decodePayloadCrc_append (data rest : List Byte) (crc : Word) (h : data.length ≤ Config.maxPayload) :
    decodePayloadCrc (lenByte data.length) (data ++ (beBytes crc ++ rest)) = .ok (data, crc, rest) := by
  simp [decodePayloadCrc, beBytes, lenByte_toNat h]

theorem decodePayloadCrc_eq_ok {n : Byte} {bs data rest : List Byte} {crc : Word}
    (h : decodePayloadCrc n bs = .ok (data, crc, rest)) :
    bs = data ++ (beBytes crc ++ rest) ∧ lenByte data.length = n ∧ data.length ≤ Config.maxPayload := by
  unfold decodePayloadCrc at h
  split at h
  · rename_i d ch cl rest' hr
    cases h
    obtain ⟨rfl, hlen⟩ := takeExact_eq_some hr
    have hlt := n.isLt
    refine ⟨by simp [beBytes], by simp [hlen], ?_⟩
    simp only [Config.maxPayload]
    omega
  · cases h

/-- Only a response stands on the inbound channel, and its bytes are the response's own. -/
theorem decodeResponse_eq_ok {bs rest : List Byte} {i : Instr} (h : decode .inbound bs = .ok (i, rest)) :
    ∃ data crc, i = .response data crc ∧ bs = responseFrame data crc ++ rest ∧
      data.length ≤ Config.maxPayload := by
  simp only [decode, decodeResponse] at h
  split at h
  · split at h
    · rename_i hm
      obtain ⟨rfl, rfl, rfl⟩ := hm
      unfold decodeResponseBody at h
      split at h
      · split at h
        · rename_i hp
          cases h
          obtain ⟨rfl, hn, hlen⟩ := decodePayloadCrc_eq_ok hp
          exact ⟨_, _, rfl, by simp [responseFrame, hn], hlen⟩
        · cases h
      · cases h
    · cases h
  · cases h

/-- Only a command frame stands on the outbound channel, and its bytes are the frame's own. -/
theorem decodeFrame_eq_ok {bs rest : List Byte} {i : Instr} (h : decode .outbound bs = .ok (i, rest)) :
    ∃ (t : CommandType) (ah al : Byte) (data : List Byte) (crc : Word), i = t.instr ah al data crc ∧
      bs = commandFrame t.byte ah al data crc ++ rest ∧ data.length ≤ Config.maxPayload := by
  simp only [decode, decodeFrame] at h
  split at h
  · split at h
    · rename_i hm
      obtain ⟨rfl, rfl⟩ := hm
      unfold decodeCommandBody at h
      split at h
      · split at h
        · cases h
        · rename_i ht
          split at h
          · rename_i hp
            cases h
            obtain ⟨rfl, hn, hlen⟩ := decodePayloadCrc_eq_ok hp
            refine ⟨_, _, _, _, _, rfl, ?_, hlen⟩
            simp [commandFrame, hn, CommandType.byte_of_ofByte? ht]
          · cases h
      · cases h
    · cases h
  · cases h

end Sys2Proof
end

