-- ==== Sys2Proof/Laws/State.lean ====
section
/-! SUPPORT. The small lemmas of State's updates: one for each field and update, all true by rfl, so that no proof
unfolds an update. -/

namespace Sys2Proof.Machine

@[simp] theorem State.setCrc_crc (s : State) (v : Word) : (s.setCrc v).crc = v := rfl
@[simp] theorem State.setCrc_poly (s : State) (v : Word) : (s.setCrc v).poly = s.poly := rfl
@[simp] theorem State.setCrc_pstate (s : State) (v : Word) : (s.setCrc v).pstate = s.pstate := rfl
@[simp] theorem State.setCrc_len (s : State) (v : Word) : (s.setCrc v).len = s.len := rfl
@[simp] theorem State.setCrc_cnt (s : State) (v : Word) : (s.setCrc v).cnt = s.cnt := rfl
@[simp] theorem State.setCrc_pbuf (s : State) (v : Word) : (s.setCrc v).pbuf = s.pbuf := rfl
@[simp] theorem State.setCrc_rxcrc (s : State) (v : Word) : (s.setCrc v).rxcrc = s.rxcrc := rfl
@[simp] theorem State.setCrc_fault (s : State) (v : Word) : (s.setCrc v).fault = s.fault := rfl
@[simp] theorem State.setCrc_refused (s : State) (v : Word) : (s.setCrc v).refused = s.refused := rfl
@[simp] theorem State.setCrc_rxq (s : State) (v : Word) : (s.setCrc v).rxq = s.rxq := rfl
@[simp] theorem State.setCrc_hist (s : State) (v : Word) : (s.setCrc v).hist = s.hist := rfl
@[simp] theorem State.setCrc_params (s : State) (v : Word) : (s.setCrc v).params = s.params := rfl
@[simp] theorem State.setCrc_port (s : State) (v : Word) : (s.setCrc v).port = s.port := rfl
@[simp] theorem State.setCrc_out (s : State) (v : Word) : (s.setCrc v).out = s.out := rfl
@[simp] theorem State.setCrc_agenda (s : State) (v : Word) : (s.setCrc v).agenda = s.agenda := rfl
@[simp] theorem State.setCrc_tape (s : State) (v : Word) : (s.setCrc v).tape = s.tape := rfl
@[simp] theorem State.setCrc_drawn (s : State) (v : Word) : (s.setCrc v).drawn = s.drawn := rfl

@[simp] theorem State.setPoly_crc (s : State) (v : Word) : (s.setPoly v).crc = s.crc := rfl
@[simp] theorem State.setPoly_poly (s : State) (v : Word) : (s.setPoly v).poly = v := rfl
@[simp] theorem State.setPoly_pstate (s : State) (v : Word) : (s.setPoly v).pstate = s.pstate := rfl
@[simp] theorem State.setPoly_len (s : State) (v : Word) : (s.setPoly v).len = s.len := rfl
@[simp] theorem State.setPoly_cnt (s : State) (v : Word) : (s.setPoly v).cnt = s.cnt := rfl
@[simp] theorem State.setPoly_pbuf (s : State) (v : Word) : (s.setPoly v).pbuf = s.pbuf := rfl
@[simp] theorem State.setPoly_rxcrc (s : State) (v : Word) : (s.setPoly v).rxcrc = s.rxcrc := rfl
@[simp] theorem State.setPoly_fault (s : State) (v : Word) : (s.setPoly v).fault = s.fault := rfl
@[simp] theorem State.setPoly_refused (s : State) (v : Word) : (s.setPoly v).refused = s.refused := rfl
@[simp] theorem State.setPoly_rxq (s : State) (v : Word) : (s.setPoly v).rxq = s.rxq := rfl
@[simp] theorem State.setPoly_hist (s : State) (v : Word) : (s.setPoly v).hist = s.hist := rfl
@[simp] theorem State.setPoly_params (s : State) (v : Word) : (s.setPoly v).params = s.params := rfl
@[simp] theorem State.setPoly_port (s : State) (v : Word) : (s.setPoly v).port = s.port := rfl
@[simp] theorem State.setPoly_out (s : State) (v : Word) : (s.setPoly v).out = s.out := rfl
@[simp] theorem State.setPoly_agenda (s : State) (v : Word) : (s.setPoly v).agenda = s.agenda := rfl
@[simp] theorem State.setPoly_tape (s : State) (v : Word) : (s.setPoly v).tape = s.tape := rfl
@[simp] theorem State.setPoly_drawn (s : State) (v : Word) : (s.setPoly v).drawn = s.drawn := rfl

@[simp] theorem State.goTo_crc (s : State) (p : PState) : (s.goTo p).crc = s.crc := rfl
@[simp] theorem State.goTo_poly (s : State) (p : PState) : (s.goTo p).poly = s.poly := rfl
@[simp] theorem State.goTo_pstate (s : State) (p : PState) : (s.goTo p).pstate = p := rfl
@[simp] theorem State.goTo_len (s : State) (p : PState) : (s.goTo p).len = s.len := rfl
@[simp] theorem State.goTo_cnt (s : State) (p : PState) : (s.goTo p).cnt = s.cnt := rfl
@[simp] theorem State.goTo_pbuf (s : State) (p : PState) : (s.goTo p).pbuf = s.pbuf := rfl
@[simp] theorem State.goTo_rxcrc (s : State) (p : PState) : (s.goTo p).rxcrc = s.rxcrc := rfl
@[simp] theorem State.goTo_fault (s : State) (p : PState) : (s.goTo p).fault = s.fault := rfl
@[simp] theorem State.goTo_refused (s : State) (p : PState) : (s.goTo p).refused = s.refused := rfl
@[simp] theorem State.goTo_rxq (s : State) (p : PState) : (s.goTo p).rxq = s.rxq := rfl
@[simp] theorem State.goTo_hist (s : State) (p : PState) : (s.goTo p).hist = s.hist := rfl
@[simp] theorem State.goTo_params (s : State) (p : PState) : (s.goTo p).params = s.params := rfl
@[simp] theorem State.goTo_port (s : State) (p : PState) : (s.goTo p).port = s.port := rfl
@[simp] theorem State.goTo_out (s : State) (p : PState) : (s.goTo p).out = s.out := rfl
@[simp] theorem State.goTo_agenda (s : State) (p : PState) : (s.goTo p).agenda = s.agenda := rfl
@[simp] theorem State.goTo_tape (s : State) (p : PState) : (s.goTo p).tape = s.tape := rfl
@[simp] theorem State.goTo_drawn (s : State) (p : PState) : (s.goTo p).drawn = s.drawn := rfl

@[simp] theorem State.setLen_crc (s : State) (v : Byte) : (s.setLen v).crc = s.crc := rfl
@[simp] theorem State.setLen_poly (s : State) (v : Byte) : (s.setLen v).poly = s.poly := rfl
@[simp] theorem State.setLen_pstate (s : State) (v : Byte) : (s.setLen v).pstate = s.pstate := rfl
@[simp] theorem State.setLen_len (s : State) (v : Byte) : (s.setLen v).len = v := rfl
@[simp] theorem State.setLen_cnt (s : State) (v : Byte) : (s.setLen v).cnt = s.cnt := rfl
@[simp] theorem State.setLen_pbuf (s : State) (v : Byte) : (s.setLen v).pbuf = s.pbuf := rfl
@[simp] theorem State.setLen_rxcrc (s : State) (v : Byte) : (s.setLen v).rxcrc = s.rxcrc := rfl
@[simp] theorem State.setLen_fault (s : State) (v : Byte) : (s.setLen v).fault = s.fault := rfl
@[simp] theorem State.setLen_refused (s : State) (v : Byte) : (s.setLen v).refused = s.refused := rfl
@[simp] theorem State.setLen_rxq (s : State) (v : Byte) : (s.setLen v).rxq = s.rxq := rfl
@[simp] theorem State.setLen_hist (s : State) (v : Byte) : (s.setLen v).hist = s.hist := rfl
@[simp] theorem State.setLen_params (s : State) (v : Byte) : (s.setLen v).params = s.params := rfl
@[simp] theorem State.setLen_port (s : State) (v : Byte) : (s.setLen v).port = s.port := rfl
@[simp] theorem State.setLen_out (s : State) (v : Byte) : (s.setLen v).out = s.out := rfl
@[simp] theorem State.setLen_agenda (s : State) (v : Byte) : (s.setLen v).agenda = s.agenda := rfl
@[simp] theorem State.setLen_tape (s : State) (v : Byte) : (s.setLen v).tape = s.tape := rfl
@[simp] theorem State.setLen_drawn (s : State) (v : Byte) : (s.setLen v).drawn = s.drawn := rfl

@[simp] theorem State.setCnt_crc (s : State) (v : Byte) : (s.setCnt v).crc = s.crc := rfl
@[simp] theorem State.setCnt_poly (s : State) (v : Byte) : (s.setCnt v).poly = s.poly := rfl
@[simp] theorem State.setCnt_pstate (s : State) (v : Byte) : (s.setCnt v).pstate = s.pstate := rfl
@[simp] theorem State.setCnt_len (s : State) (v : Byte) : (s.setCnt v).len = s.len := rfl
@[simp] theorem State.setCnt_cnt (s : State) (v : Byte) : (s.setCnt v).cnt = v := rfl
@[simp] theorem State.setCnt_pbuf (s : State) (v : Byte) : (s.setCnt v).pbuf = s.pbuf := rfl
@[simp] theorem State.setCnt_rxcrc (s : State) (v : Byte) : (s.setCnt v).rxcrc = s.rxcrc := rfl
@[simp] theorem State.setCnt_fault (s : State) (v : Byte) : (s.setCnt v).fault = s.fault := rfl
@[simp] theorem State.setCnt_refused (s : State) (v : Byte) : (s.setCnt v).refused = s.refused := rfl
@[simp] theorem State.setCnt_rxq (s : State) (v : Byte) : (s.setCnt v).rxq = s.rxq := rfl
@[simp] theorem State.setCnt_hist (s : State) (v : Byte) : (s.setCnt v).hist = s.hist := rfl
@[simp] theorem State.setCnt_params (s : State) (v : Byte) : (s.setCnt v).params = s.params := rfl
@[simp] theorem State.setCnt_port (s : State) (v : Byte) : (s.setCnt v).port = s.port := rfl
@[simp] theorem State.setCnt_out (s : State) (v : Byte) : (s.setCnt v).out = s.out := rfl
@[simp] theorem State.setCnt_agenda (s : State) (v : Byte) : (s.setCnt v).agenda = s.agenda := rfl
@[simp] theorem State.setCnt_tape (s : State) (v : Byte) : (s.setCnt v).tape = s.tape := rfl
@[simp] theorem State.setCnt_drawn (s : State) (v : Byte) : (s.setCnt v).drawn = s.drawn := rfl

@[simp] theorem State.setRxcrc_crc (s : State) (v : Word) : (s.setRxcrc v).crc = s.crc := rfl
@[simp] theorem State.setRxcrc_poly (s : State) (v : Word) : (s.setRxcrc v).poly = s.poly := rfl
@[simp] theorem State.setRxcrc_pstate (s : State) (v : Word) : (s.setRxcrc v).pstate = s.pstate := rfl
@[simp] theorem State.setRxcrc_len (s : State) (v : Word) : (s.setRxcrc v).len = s.len := rfl
@[simp] theorem State.setRxcrc_cnt (s : State) (v : Word) : (s.setRxcrc v).cnt = s.cnt := rfl
@[simp] theorem State.setRxcrc_pbuf (s : State) (v : Word) : (s.setRxcrc v).pbuf = s.pbuf := rfl
@[simp] theorem State.setRxcrc_rxcrc (s : State) (v : Word) : (s.setRxcrc v).rxcrc = v := rfl
@[simp] theorem State.setRxcrc_fault (s : State) (v : Word) : (s.setRxcrc v).fault = s.fault := rfl
@[simp] theorem State.setRxcrc_refused (s : State) (v : Word) : (s.setRxcrc v).refused = s.refused := rfl
@[simp] theorem State.setRxcrc_rxq (s : State) (v : Word) : (s.setRxcrc v).rxq = s.rxq := rfl
@[simp] theorem State.setRxcrc_hist (s : State) (v : Word) : (s.setRxcrc v).hist = s.hist := rfl
@[simp] theorem State.setRxcrc_params (s : State) (v : Word) : (s.setRxcrc v).params = s.params := rfl
@[simp] theorem State.setRxcrc_port (s : State) (v : Word) : (s.setRxcrc v).port = s.port := rfl
@[simp] theorem State.setRxcrc_out (s : State) (v : Word) : (s.setRxcrc v).out = s.out := rfl
@[simp] theorem State.setRxcrc_agenda (s : State) (v : Word) : (s.setRxcrc v).agenda = s.agenda := rfl
@[simp] theorem State.setRxcrc_tape (s : State) (v : Word) : (s.setRxcrc v).tape = s.tape := rfl
@[simp] theorem State.setRxcrc_drawn (s : State) (v : Word) : (s.setRxcrc v).drawn = s.drawn := rfl

@[simp] theorem State.setRxq_crc (s : State) (q : List Byte) : (s.setRxq q).crc = s.crc := rfl
@[simp] theorem State.setRxq_poly (s : State) (q : List Byte) : (s.setRxq q).poly = s.poly := rfl
@[simp] theorem State.setRxq_pstate (s : State) (q : List Byte) : (s.setRxq q).pstate = s.pstate := rfl
@[simp] theorem State.setRxq_len (s : State) (q : List Byte) : (s.setRxq q).len = s.len := rfl
@[simp] theorem State.setRxq_cnt (s : State) (q : List Byte) : (s.setRxq q).cnt = s.cnt := rfl
@[simp] theorem State.setRxq_pbuf (s : State) (q : List Byte) : (s.setRxq q).pbuf = s.pbuf := rfl
@[simp] theorem State.setRxq_rxcrc (s : State) (q : List Byte) : (s.setRxq q).rxcrc = s.rxcrc := rfl
@[simp] theorem State.setRxq_fault (s : State) (q : List Byte) : (s.setRxq q).fault = s.fault := rfl
@[simp] theorem State.setRxq_refused (s : State) (q : List Byte) : (s.setRxq q).refused = s.refused := rfl
@[simp] theorem State.setRxq_rxq (s : State) (q : List Byte) : (s.setRxq q).rxq = q := rfl
@[simp] theorem State.setRxq_hist (s : State) (q : List Byte) : (s.setRxq q).hist = s.hist := rfl
@[simp] theorem State.setRxq_params (s : State) (q : List Byte) : (s.setRxq q).params = s.params := rfl
@[simp] theorem State.setRxq_port (s : State) (q : List Byte) : (s.setRxq q).port = s.port := rfl
@[simp] theorem State.setRxq_out (s : State) (q : List Byte) : (s.setRxq q).out = s.out := rfl
@[simp] theorem State.setRxq_agenda (s : State) (q : List Byte) : (s.setRxq q).agenda = s.agenda := rfl
@[simp] theorem State.setRxq_tape (s : State) (q : List Byte) : (s.setRxq q).tape = s.tape := rfl
@[simp] theorem State.setRxq_drawn (s : State) (q : List Byte) : (s.setRxq q).drawn = s.drawn := rfl

@[simp] theorem State.log_crc (s : State) (e : Event) : (s.log e).crc = s.crc := rfl
@[simp] theorem State.log_poly (s : State) (e : Event) : (s.log e).poly = s.poly := rfl
@[simp] theorem State.log_pstate (s : State) (e : Event) : (s.log e).pstate = s.pstate := rfl
@[simp] theorem State.log_len (s : State) (e : Event) : (s.log e).len = s.len := rfl
@[simp] theorem State.log_cnt (s : State) (e : Event) : (s.log e).cnt = s.cnt := rfl
@[simp] theorem State.log_pbuf (s : State) (e : Event) : (s.log e).pbuf = s.pbuf := rfl
@[simp] theorem State.log_rxcrc (s : State) (e : Event) : (s.log e).rxcrc = s.rxcrc := rfl
@[simp] theorem State.log_fault (s : State) (e : Event) : (s.log e).fault = s.fault := rfl
@[simp] theorem State.log_refused (s : State) (e : Event) : (s.log e).refused = s.refused := rfl
@[simp] theorem State.log_rxq (s : State) (e : Event) : (s.log e).rxq = s.rxq := rfl
@[simp] theorem State.log_hist (s : State) (e : Event) : (s.log e).hist = s.hist ++ [e] := rfl
@[simp] theorem State.log_params (s : State) (e : Event) : (s.log e).params = s.params := rfl
@[simp] theorem State.log_port (s : State) (e : Event) : (s.log e).port = s.port := rfl
@[simp] theorem State.log_out (s : State) (e : Event) : (s.log e).out = s.out := rfl
@[simp] theorem State.log_agenda (s : State) (e : Event) : (s.log e).agenda = s.agenda := rfl
@[simp] theorem State.log_tape (s : State) (e : Event) : (s.log e).tape = s.tape := rfl
@[simp] theorem State.log_drawn (s : State) (e : Event) : (s.log e).drawn = s.drawn := rfl

@[simp] theorem State.reply_crc (s : State) (k : ErrorKind) (r : List Byte) : (s.reply k r).crc = s.crc := rfl
@[simp] theorem State.reply_poly (s : State) (k : ErrorKind) (r : List Byte) : (s.reply k r).poly = s.poly := rfl
@[simp] theorem State.reply_pstate (s : State) (k : ErrorKind) (r : List Byte) : (s.reply k r).pstate = s.pstate := rfl
@[simp] theorem State.reply_len (s : State) (k : ErrorKind) (r : List Byte) : (s.reply k r).len = s.len := rfl
@[simp] theorem State.reply_cnt (s : State) (k : ErrorKind) (r : List Byte) : (s.reply k r).cnt = s.cnt := rfl
@[simp] theorem State.reply_pbuf (s : State) (k : ErrorKind) (r : List Byte) : (s.reply k r).pbuf = s.pbuf := rfl
@[simp] theorem State.reply_rxcrc (s : State) (k : ErrorKind) (r : List Byte) : (s.reply k r).rxcrc = s.rxcrc := rfl
@[simp] theorem State.reply_fault (s : State) (k : ErrorKind) (r : List Byte) : (s.reply k r).fault = s.fault := rfl
@[simp] theorem State.reply_refused (s : State) (k : ErrorKind) (r : List Byte) : (s.reply k r).refused = s.refused := rfl
@[simp] theorem State.reply_rxq (s : State) (k : ErrorKind) (r : List Byte) : (s.reply k r).rxq = s.rxq := rfl
@[simp] theorem State.reply_hist (s : State) (k : ErrorKind) (r : List Byte) : (s.reply k r).hist = s.hist := rfl
@[simp] theorem State.reply_params (s : State) (k : ErrorKind) (r : List Byte) : (s.reply k r).params = s.params := rfl
@[simp] theorem State.reply_port (s : State) (k : ErrorKind) (r : List Byte) : (s.reply k r).port = s.port := rfl
@[simp] theorem State.reply_out (s : State) (k : ErrorKind) (r : List Byte) : (s.reply k r).out = s.out ++ [k.code :: r] := rfl
@[simp] theorem State.reply_agenda (s : State) (k : ErrorKind) (r : List Byte) : (s.reply k r).agenda = s.agenda := rfl
@[simp] theorem State.reply_tape (s : State) (k : ErrorKind) (r : List Byte) : (s.reply k r).tape = s.tape := rfl
@[simp] theorem State.reply_drawn (s : State) (k : ErrorKind) (r : List Byte) : (s.reply k r).drawn = s.drawn := rfl

@[simp] theorem State.receive_crc (s : State) (bs : List Byte) : (s.receive bs).crc = s.crc := rfl
@[simp] theorem State.receive_poly (s : State) (bs : List Byte) : (s.receive bs).poly = s.poly := rfl
@[simp] theorem State.receive_pstate (s : State) (bs : List Byte) : (s.receive bs).pstate = s.pstate := rfl
@[simp] theorem State.receive_len (s : State) (bs : List Byte) : (s.receive bs).len = s.len := rfl
@[simp] theorem State.receive_cnt (s : State) (bs : List Byte) : (s.receive bs).cnt = s.cnt := rfl
@[simp] theorem State.receive_pbuf (s : State) (bs : List Byte) : (s.receive bs).pbuf = s.pbuf := rfl
@[simp] theorem State.receive_rxcrc (s : State) (bs : List Byte) : (s.receive bs).rxcrc = s.rxcrc := rfl
@[simp] theorem State.receive_fault (s : State) (bs : List Byte) : (s.receive bs).fault = s.fault := rfl
@[simp] theorem State.receive_refused (s : State) (bs : List Byte) : (s.receive bs).refused = s.refused := rfl
@[simp] theorem State.receive_rxq (s : State) (bs : List Byte) : (s.receive bs).rxq = s.rxq ++ bs := rfl
@[simp] theorem State.receive_hist (s : State) (bs : List Byte) : (s.receive bs).hist = s.hist := rfl
@[simp] theorem State.receive_params (s : State) (bs : List Byte) : (s.receive bs).params = s.params := rfl
@[simp] theorem State.receive_port (s : State) (bs : List Byte) : (s.receive bs).port = s.port := rfl
@[simp] theorem State.receive_out (s : State) (bs : List Byte) : (s.receive bs).out = s.out := rfl
@[simp] theorem State.receive_agenda (s : State) (bs : List Byte) : (s.receive bs).agenda = s.agenda := rfl
@[simp] theorem State.receive_tape (s : State) (bs : List Byte) : (s.receive bs).tape = s.tape := rfl
@[simp] theorem State.receive_drawn (s : State) (bs : List Byte) : (s.receive bs).drawn = s.drawn := rfl

@[simp] theorem State.raiseFault_crc (s : State) (f : Fault) : (s.raiseFault f).crc = s.crc := rfl
@[simp] theorem State.raiseFault_poly (s : State) (f : Fault) : (s.raiseFault f).poly = s.poly := rfl
@[simp] theorem State.raiseFault_pstate (s : State) (f : Fault) : (s.raiseFault f).pstate = s.pstate := rfl
@[simp] theorem State.raiseFault_len (s : State) (f : Fault) : (s.raiseFault f).len = s.len := rfl
@[simp] theorem State.raiseFault_cnt (s : State) (f : Fault) : (s.raiseFault f).cnt = s.cnt := rfl
@[simp] theorem State.raiseFault_pbuf (s : State) (f : Fault) : (s.raiseFault f).pbuf = s.pbuf := rfl
@[simp] theorem State.raiseFault_rxcrc (s : State) (f : Fault) : (s.raiseFault f).rxcrc = s.rxcrc := rfl
@[simp] theorem State.raiseFault_fault (s : State) (f : Fault) : (s.raiseFault f).fault = some f := rfl
@[simp] theorem State.raiseFault_refused (s : State) (f : Fault) : (s.raiseFault f).refused = s.refused := rfl
@[simp] theorem State.raiseFault_rxq (s : State) (f : Fault) : (s.raiseFault f).rxq = s.rxq := rfl
@[simp] theorem State.raiseFault_hist (s : State) (f : Fault) : (s.raiseFault f).hist = s.hist := rfl
@[simp] theorem State.raiseFault_params (s : State) (f : Fault) : (s.raiseFault f).params = s.params := rfl
@[simp] theorem State.raiseFault_port (s : State) (f : Fault) : (s.raiseFault f).port = s.port := rfl
@[simp] theorem State.raiseFault_out (s : State) (f : Fault) : (s.raiseFault f).out = s.out := rfl
@[simp] theorem State.raiseFault_agenda (s : State) (f : Fault) : (s.raiseFault f).agenda = s.agenda := rfl
@[simp] theorem State.raiseFault_tape (s : State) (f : Fault) : (s.raiseFault f).tape = s.tape := rfl
@[simp] theorem State.raiseFault_drawn (s : State) (f : Fault) : (s.raiseFault f).drawn = s.drawn := rfl

@[simp] theorem State.refuse_crc (s : State) : s.refuse.crc = s.crc := rfl
@[simp] theorem State.refuse_poly (s : State) : s.refuse.poly = s.poly := rfl
@[simp] theorem State.refuse_pstate (s : State) : s.refuse.pstate = s.pstate := rfl
@[simp] theorem State.refuse_len (s : State) : s.refuse.len = s.len := rfl
@[simp] theorem State.refuse_cnt (s : State) : s.refuse.cnt = s.cnt := rfl
@[simp] theorem State.refuse_pbuf (s : State) : s.refuse.pbuf = s.pbuf := rfl
@[simp] theorem State.refuse_rxcrc (s : State) : s.refuse.rxcrc = s.rxcrc := rfl
@[simp] theorem State.refuse_fault (s : State) : s.refuse.fault = s.fault := rfl
@[simp] theorem State.refuse_refused (s : State) : s.refuse.refused = true := rfl
@[simp] theorem State.refuse_rxq (s : State) : s.refuse.rxq = s.rxq := rfl
@[simp] theorem State.refuse_hist (s : State) : s.refuse.hist = s.hist := rfl
@[simp] theorem State.refuse_params (s : State) : s.refuse.params = s.params := rfl
@[simp] theorem State.refuse_port (s : State) : s.refuse.port = [] := rfl
@[simp] theorem State.refuse_out (s : State) : s.refuse.out = s.out := rfl
@[simp] theorem State.refuse_agenda (s : State) : s.refuse.agenda = s.agenda := rfl
@[simp] theorem State.refuse_tape (s : State) : s.refuse.tape = s.tape := rfl
@[simp] theorem State.refuse_drawn (s : State) : s.refuse.drawn = s.drawn := rfl

@[simp] theorem State.nextDraw_crc (s : State) : s.nextDraw.crc = s.crc := rfl
@[simp] theorem State.nextDraw_poly (s : State) : s.nextDraw.poly = s.poly := rfl
@[simp] theorem State.nextDraw_pstate (s : State) : s.nextDraw.pstate = s.pstate := rfl
@[simp] theorem State.nextDraw_len (s : State) : s.nextDraw.len = s.len := rfl
@[simp] theorem State.nextDraw_cnt (s : State) : s.nextDraw.cnt = s.cnt := rfl
@[simp] theorem State.nextDraw_pbuf (s : State) : s.nextDraw.pbuf = s.pbuf := rfl
@[simp] theorem State.nextDraw_rxcrc (s : State) : s.nextDraw.rxcrc = s.rxcrc := rfl
@[simp] theorem State.nextDraw_fault (s : State) : s.nextDraw.fault = s.fault := rfl
@[simp] theorem State.nextDraw_refused (s : State) : s.nextDraw.refused = s.refused := rfl
@[simp] theorem State.nextDraw_rxq (s : State) : s.nextDraw.rxq = s.rxq := rfl
@[simp] theorem State.nextDraw_hist (s : State) : s.nextDraw.hist = s.hist := rfl
@[simp] theorem State.nextDraw_params (s : State) : s.nextDraw.params = s.params := rfl
@[simp] theorem State.nextDraw_port (s : State) : s.nextDraw.port = s.port := rfl
@[simp] theorem State.nextDraw_out (s : State) : s.nextDraw.out = s.out := rfl
@[simp] theorem State.nextDraw_agenda (s : State) : s.nextDraw.agenda = s.agenda := rfl
@[simp] theorem State.nextDraw_tape (s : State) : s.nextDraw.tape = s.tape.tail := rfl
@[simp] theorem State.nextDraw_drawn (s : State) : s.nextDraw.drawn = s.drawn + 1 := rfl

@[simp] theorem State.writePbuf_crc (s : State) (i b : Byte) : (s.writePbuf i b).crc = s.crc := rfl
@[simp] theorem State.writePbuf_poly (s : State) (i b : Byte) : (s.writePbuf i b).poly = s.poly := rfl
@[simp] theorem State.writePbuf_pstate (s : State) (i b : Byte) : (s.writePbuf i b).pstate = s.pstate := rfl
@[simp] theorem State.writePbuf_len (s : State) (i b : Byte) : (s.writePbuf i b).len = s.len := rfl
@[simp] theorem State.writePbuf_cnt (s : State) (i b : Byte) : (s.writePbuf i b).cnt = s.cnt := rfl
@[simp] theorem State.writePbuf_pbuf (s : State) (i b : Byte) : (s.writePbuf i b).pbuf = (if h : i.toNat < Config.pbufSize then s.pbuf.set i.toNat b else s.pbuf) := rfl
@[simp] theorem State.writePbuf_rxcrc (s : State) (i b : Byte) : (s.writePbuf i b).rxcrc = s.rxcrc := rfl
@[simp] theorem State.writePbuf_fault (s : State) (i b : Byte) : (s.writePbuf i b).fault = s.fault := rfl
@[simp] theorem State.writePbuf_refused (s : State) (i b : Byte) : (s.writePbuf i b).refused = s.refused := rfl
@[simp] theorem State.writePbuf_rxq (s : State) (i b : Byte) : (s.writePbuf i b).rxq = s.rxq := rfl
@[simp] theorem State.writePbuf_hist (s : State) (i b : Byte) : (s.writePbuf i b).hist = s.hist := rfl
@[simp] theorem State.writePbuf_params (s : State) (i b : Byte) : (s.writePbuf i b).params = s.params := rfl
@[simp] theorem State.writePbuf_port (s : State) (i b : Byte) : (s.writePbuf i b).port = s.port := rfl
@[simp] theorem State.writePbuf_out (s : State) (i b : Byte) : (s.writePbuf i b).out = s.out := rfl
@[simp] theorem State.writePbuf_agenda (s : State) (i b : Byte) : (s.writePbuf i b).agenda = s.agenda := rfl
@[simp] theorem State.writePbuf_tape (s : State) (i b : Byte) : (s.writePbuf i b).tape = s.tape := rfl
@[simp] theorem State.writePbuf_drawn (s : State) (i b : Byte) : (s.writePbuf i b).drawn = s.drawn := rfl

/-- The buffer as a list: a write at an index past the end leaves it, as the list's own `set` does. -/
theorem State.writePbuf_toList (s : State) (i b : Byte) :
    (s.writePbuf i b).pbuf.toList = s.pbuf.toList.set i.toNat b := by
  rw [State.writePbuf_pbuf]
  split
  · exact Vector.toList_set _
  · rename_i h
    rw [List.set_eq_of_length_le]
    simpa using h

/-- The buffer has 255 bytes (10_state.md R30). -/
theorem State.pbuf_length (s : State) : s.pbuf.toList.length = 255 := by
  simp [Config.pbufSize]

/-- The buffer has 255 bytes, so a part of it has as many bytes as asked for. -/
@[simp] theorem State.pbufPart_length (s : State) (n : Byte) : (s.pbufPart n).length = n.toNat := by
  have := n.isLt
  simp [State.pbufPart, Config.pbufSize]
  omega

end Sys2Proof.Machine
end

