-- ==== Sys2Proof/Laws/Operations.lean ====
section
/-! SUPPORT. One lemma for each shared operation that says once everything it can do; later proofs cite it instead of
unfolding the operation. -/

namespace Sys2Proof.Machine

/-- `sendOnly`, when the write succeeds. -/
theorem State.sendOnly_of_sent {s : State} {f : List Byte} (h : s.draw.writeSent = none) :
    s.sendOnly f = (s.nextDraw.log (.write f)).reply .ok [] := by
  simp [State.sendOnly, writeEvent, h]

/-- `sendOnly`, when the write fails after `k` bytes. -/
theorem State.sendOnly_of_failed {s : State} {f : List Byte} {k : Nat} (h : s.draw.writeSent = some k) :
    s.sendOnly f = (s.nextDraw.log (.writeFail (f.take k))).reply .transportError [] := by
  simp [State.sendOnly, writeEvent, h]

/-- All that `sendOnly` can do: one event of a write, one return string. -/
theorem State.sendOnly_cases (s : State) (f : List Byte) :
    s.sendOnly f = (s.nextDraw.log (.write f)).reply .ok [] ∨
    ∃ k, s.sendOnly f = (s.nextDraw.log (.writeFail (f.take k))).reply .transportError [] := by
  cases h : s.draw.writeSent with
  | none => exact .inl (State.sendOnly_of_sent h)
  | some k => exact .inr ⟨k, State.sendOnly_of_failed h⟩

/-- `transmit` during an exchange: the fault mark and nothing else. -/
theorem State.transmit_of_reading {s : State} {f : List Byte} (h : s.pstate.reading = true) :
    s.transmit f = s.raiseFault .exchangeBusy := by
  simp [State.transmit, h]

/-- `transmit` in a quiescent state. -/
theorem State.transmit_of_quiescent {s : State} {f : List Byte} (h : s.pstate.reading = false) :
    s.transmit f = s.sendOnly f := by
  simp [State.transmit, h]

/-- All that starting an exchange can do: a failed flush, a failed write, or the exchange has started. -/
theorem State.startExchange_cases (s : State) (f : List Byte) :
    (s.draw.flushFails = true ∧
      s.startExchange f = ((s.nextDraw.log .flushFail).goTo .transportError).reply .transportError []) ∨
    (∃ k, s.draw.flushFails = false ∧ s.draw.writeSent = some k ∧
      s.startExchange f = ((((s.nextDraw.setRxq []).log .flush).log (.writeFail (f.take k))).goTo
        .transportError).reply .transportError []) ∨
    (s.draw.flushFails = false ∧ s.draw.writeSent = none ∧
      s.startExchange f = (((((((s.nextDraw.setRxq []).log .flush).log (.write f)).log .delay).setLen 0x00#8).setCnt
        0x00#8).setRxcrc 0x0000#16 |>.goTo .expect02).reply .ok []) := by
  cases hf : s.draw.flushFails with
  | true => exact .inl ⟨rfl, by simp [State.startExchange, hf]⟩
  | false =>
    cases hw : s.draw.writeSent with
    | none => exact .inr (.inr ⟨rfl, rfl, by simp [State.startExchange, writeEvent, hf, hw]⟩)
    | some k => exact .inr (.inl ⟨k, rfl, rfl, by simp [State.startExchange, writeEvent, hf, hw]⟩)

/-- All that an answered read can do (42_response_parser.md R166): a failure, a byte, a timeout, or nothing. -/
theorem State.readAnswered_cases (a : ReadAnswer) (s : State) :
    (a = .fail ∧ s.readAnswered a = (s.log .readFail).goTo .transportError) ∨
    (∃ b q, a ≠ .fail ∧ s.rxq = b :: q ∧
      s.readAnswered a = ((s.setRxq q).log (.read b)).processByte b) ∨
    (a = .timeout ∧ s.rxq = [] ∧ s.timeoutEnabled = true ∧
      s.readAnswered a = (s.log .readTimeout).goTo s.pstate.onTimeout) ∨
    (a ≠ .fail ∧ s.rxq = [] ∧ (a = .timeout → s.timeoutEnabled = false) ∧ s.readAnswered a = s) := by
  cases a <;> cases hq : s.rxq with
  | nil => cases ht : s.timeoutEnabled <;> simp [State.readAnswered, hq, ht]
  | cons b q => simp [State.readAnswered, hq]

/-- All that the read step can do. -/
theorem State.readStep_cases (s : State) :
    (s.pstate.reading = false ∧ s.readStep = s) ∨
    (s.pstate.reading = true ∧ s.draw.read = .fail ∧
      s.readStep = (s.nextDraw.log .readFail).goTo .transportError) ∨
    (∃ b q, s.pstate.reading = true ∧ s.draw.read ≠ .fail ∧ s.rxq = b :: q ∧
      s.readStep = ((s.nextDraw.setRxq q).log (.read b)).processByte b) ∨
    (s.pstate.reading = true ∧ s.draw.read = .timeout ∧ s.rxq = [] ∧ s.timeoutEnabled = true ∧
      s.readStep = (s.nextDraw.log .readTimeout).goTo s.pstate.onTimeout) ∨
    (s.pstate.reading = true ∧ s.draw.read ≠ .fail ∧ s.rxq = [] ∧
      (s.draw.read = .timeout → s.timeoutEnabled = false) ∧ s.readStep = s.nextDraw) := by
  cases hr : s.pstate.reading with
  | false => exact .inl ⟨rfl, by simp [State.readStep, hr]⟩
  | true =>
    have h : s.readStep = s.nextDraw.readAnswered s.draw.read := by simp [State.readStep, hr]
    rw [h]
    rcases State.readAnswered_cases s.draw.read s.nextDraw with ⟨ha, he⟩ | ⟨b, q, ha, hq, he⟩ | ⟨ha, hq, ht, he⟩ |
      ⟨ha, hq, ht, he⟩
    · exact .inr (.inl ⟨rfl, ha, he⟩)
    · exact .inr (.inr (.inl ⟨b, q, rfl, ha, hq, he⟩))
    · exact .inr (.inr (.inr (.inl ⟨rfl, ha, hq, ht, he⟩)))
    · exact .inr (.inr (.inr (.inr ⟨rfl, ha, hq, ht, he⟩)))

theorem State.expectMarker_of_match (s : State) (expected : Byte) (p : PState) :
    s.expectMarker expected p expected = s.goTo p := by
  simp [State.expectMarker]

theorem State.expectMarker_of_mismatch {s : State} {expected b : Byte} {p : PState} (h : b ≠ expected) :
    s.expectMarker expected p b = s.goTo .noResponse := by
  simp [State.expectMarker, h]

theorem State.takeLength_of_zero (s : State) :
    s.takeLength 0x00#8 = ((s.setLen 0x00#8).setCnt 0x00#8).goTo .readCrcHi := by
  simp [State.takeLength]

theorem State.takeLength_of_pos {s : State} {b : Byte} (h : b ≠ 0x00#8) :
    s.takeLength b = ((s.setLen b).setCnt 0x00#8).goTo .readData := by
  simp [State.takeLength, h]

/-- The last data byte (42_response_parser.md R171). -/
theorem State.takeData_of_last {s : State} {b : Byte} (h : s.cnt + 1#8 = s.len) :
    s.takeData b = ((s.writePbuf s.cnt b).setCnt (s.cnt + 1#8)).goTo .readCrcHi := by
  simp [State.takeData, h]

/-- A data byte with more to come (R171). -/
theorem State.takeData_of_more {s : State} {b : Byte} (h : s.cnt + 1#8 ≠ s.len) :
    s.takeData b = ((s.writePbuf s.cnt b).setCnt (s.cnt + 1#8)).goTo .readData := by
  simp [State.takeData, h]

@[simp] theorem State.setRxcrc_responseCrc (s : State) (v : Word) : (s.setRxcrc v).responseCrc = s.responseCrc := rfl

/-- The last CRC byte of a response that verifies (R173). -/
theorem State.takeCrcLo_of_verified {s : State} {b : Byte} (h : s.responseCrc = be16 (hiByte s.rxcrc) b) :
    s.takeCrcLo b = (s.setRxcrc (be16 (hiByte s.rxcrc) b)).goTo .done := by
  simp [State.takeCrcLo, h]

/-- The last CRC byte of a response that does not verify (R173). -/
theorem State.takeCrcLo_of_corrupted {s : State} {b : Byte} (h : s.responseCrc ≠ be16 (hiByte s.rxcrc) b) :
    s.takeCrcLo b = (s.setRxcrc (be16 (hiByte s.rxcrc) b)).goTo .checksumError := by
  simp [State.takeCrcLo, h]

/-- Processing a byte touches the parser's own registers only. -/
theorem State.processByte_frame (b : Byte) (s : State) :
    (s.processByte b).crc = s.crc ∧ (s.processByte b).poly = s.poly ∧ (s.processByte b).fault = s.fault ∧
    (s.processByte b).refused = s.refused ∧ (s.processByte b).rxq = s.rxq ∧ (s.processByte b).hist = s.hist ∧
    (s.processByte b).params = s.params ∧ (s.processByte b).port = s.port ∧ (s.processByte b).out = s.out ∧
    (s.processByte b).agenda = s.agenda ∧ (s.processByte b).tape = s.tape ∧
    (s.processByte b).drawn = s.drawn := by
  cases hp : s.pstate <;>
    simp [State.processByte, hp, State.expectMarker, State.takeLength, State.takeData, State.takeCrcHi,
      State.takeCrcLo]

/-- The read step leaves unit C, the marks, the configuration, the port, the host's returns and the agenda. -/
theorem State.readStep_frame (s : State) :
    s.readStep.crc = s.crc ∧ s.readStep.poly = s.poly ∧ s.readStep.fault = s.fault ∧
    s.readStep.refused = s.refused ∧ s.readStep.params = s.params ∧ s.readStep.port = s.port ∧
    s.readStep.out = s.out ∧ s.readStep.agenda = s.agenda := by
  rcases State.readStep_cases s with ⟨_, h⟩ | ⟨_, _, h⟩ | ⟨b, q, _, _, _, h⟩ | ⟨_, _, _, _, h⟩ | ⟨_, _, _, _, h⟩ <;>
    rw [h]
  · simp
  · simp
  · have hb := State.processByte_frame b ((s.nextDraw.setRxq q).log (.read b))
    simp only [State.log_crc, State.setRxq_crc, State.nextDraw_crc, State.log_poly, State.setRxq_poly,
      State.nextDraw_poly, State.log_fault, State.setRxq_fault, State.nextDraw_fault, State.log_refused,
      State.setRxq_refused, State.nextDraw_refused, State.log_params, State.setRxq_params, State.nextDraw_params,
      State.log_port, State.setRxq_port, State.nextDraw_port, State.log_out, State.setRxq_out, State.nextDraw_out,
      State.log_agenda, State.setRxq_agenda, State.nextDraw_agenda] at hb
    obtain ⟨h1, h2, h3, h4, -, -, h7, h8, h9, h10, -, -⟩ := hb
    exact ⟨h1, h2, h3, h4, h7, h8, h9, h10⟩
  · simp
  · simp

/-- Sending a frame leaves the parser, unit C, RXQ, the refusal mark, the configuration, the port and the agenda. -/
theorem State.transmit_frame (s : State) (f : List Byte) :
    (s.transmit f).crc = s.crc ∧ (s.transmit f).poly = s.poly ∧ (s.transmit f).pstate = s.pstate ∧
    (s.transmit f).len = s.len ∧ (s.transmit f).cnt = s.cnt ∧ (s.transmit f).pbuf = s.pbuf ∧
    (s.transmit f).rxcrc = s.rxcrc ∧ (s.transmit f).refused = s.refused ∧ (s.transmit f).rxq = s.rxq ∧
    (s.transmit f).params = s.params ∧ (s.transmit f).port = s.port ∧ (s.transmit f).agenda = s.agenda := by
  cases hr : s.pstate.reading with
  | true => simp [State.transmit_of_reading hr]
  | false =>
    rw [State.transmit_of_quiescent hr]
    rcases State.sendOnly_cases s f with h | ⟨k, h⟩ <;> rw [h] <;> simp

/-- Starting an exchange leaves unit C, PBUF, the marks, the configuration, the port and the agenda. -/
theorem State.startExchange_frame (s : State) (f : List Byte) :
    (s.startExchange f).crc = s.crc ∧ (s.startExchange f).poly = s.poly ∧ (s.startExchange f).pbuf = s.pbuf ∧
    (s.startExchange f).fault = s.fault ∧ (s.startExchange f).refused = s.refused ∧
    (s.startExchange f).params = s.params ∧ (s.startExchange f).port = s.port ∧
    (s.startExchange f).agenda = s.agenda := by
  rcases State.startExchange_cases s f with ⟨_, h⟩ | ⟨k, _, _, h⟩ | ⟨_, _, h⟩ <;> rw [h] <;> simp

end Sys2Proof.Machine
end

