-- ==== Sys2Proof/Laws/PerInstr.lean ====
section
/-! SUPPORT. Facts of every instruction as written, one lemma for each constructor. Family Layout: an instruction's bytes
begin with its row of spec/opcode_table.json, and there are as many of them as its rule says. -/

namespace Sys2Proof.Laws.Layout

/-- The fixed bytes of an instruction's table row, the first on the wire first (`match` in spec/opcode_table.json). -/
def tableRow : Instr → List Byte
  | .cInit => [0x01]
  | .cBit _ => [0x02]
  | .cByte _ => [0x03]
  | .cPoly _ => [0x04]
  | .cRead => [0x05]
  | .fBuild _ _ _ _ => [0x10]
  | .pStart _ => [0x20]
  | .pSend _ => [0x21]
  | .pStatus => [0x22]
  | .pPayload => [0x23]
  | .cmdRead _ _ _ _ => [0x7E, 0x00, 0x07]
  | .cmdWrite _ _ _ _ => [0x7E, 0x00, 0x08]
  | .cmdEeprom _ _ _ _ => [0x7E, 0x00, 0x09]
  | .response _ _ => [0x02, 0x00, 0x00]

/-- The total length of an instruction (30_encoding.md R71, R76, R80). -/
def totalLength : Instr → Nat
  | .cInit | .cRead | .pStatus | .pPayload => 1
  | .cBit _ | .cByte _ => 2
  | .cPoly _ => 3
  | .fBuild _ _ _ data => 6 + data.length
  | .pStart f | .pSend f => 3 + f.length
  | .cmdRead _ _ data _ | .cmdWrite _ _ data _ | .cmdEeprom _ _ data _ => data.length + 8
  | .response data _ => data.length + 6

/-- The bytes begin with the table row, and their number is the rule's. -/
def Statement (i : Instr) : Prop :=
  (∃ operands, encode i = tableRow i ++ operands) ∧ (encode i).length = totalLength i

theorem cInit : Statement .cInit := ⟨⟨[], rfl⟩, rfl⟩

theorem cBit (d : Bool) : Statement (.cBit d) := ⟨⟨_, rfl⟩, rfl⟩

theorem cByte (x : Byte) : Statement (.cByte x) := ⟨⟨_, rfl⟩, rfl⟩

theorem cPoly (p : Word) : Statement (.cPoly p) := ⟨⟨_, rfl⟩, rfl⟩

theorem cRead : Statement .cRead := ⟨⟨[], rfl⟩, rfl⟩

theorem fBuild (t ah al : Byte) (data : List Byte) : Statement (.fBuild t ah al data) :=
  ⟨⟨_, rfl⟩, by simp [encode, encodeCounted, beBytes, totalLength]; omega⟩

theorem pStart (f : List Byte) : Statement (.pStart f) :=
  ⟨⟨_, rfl⟩, by simp [encode, encodeCounted, beBytes, totalLength]; omega⟩

theorem pSend (f : List Byte) : Statement (.pSend f) :=
  ⟨⟨_, rfl⟩, by simp [encode, encodeCounted, beBytes, totalLength]; omega⟩

theorem pStatus : Statement .pStatus := ⟨⟨[], rfl⟩, rfl⟩

theorem pPayload : Statement .pPayload := ⟨⟨[], rfl⟩, rfl⟩

theorem cmdRead (ah al : Byte) (data : List Byte) (crc : Word) : Statement (.cmdRead ah al data crc) :=
  ⟨⟨_, rfl⟩, by simp [encode, commandFrame, beBytes, totalLength]⟩

theorem cmdWrite (ah al : Byte) (data : List Byte) (crc : Word) : Statement (.cmdWrite ah al data crc) :=
  ⟨⟨_, rfl⟩, by simp [encode, commandFrame, beBytes, totalLength]⟩

theorem cmdEeprom (ah al : Byte) (data : List Byte) (crc : Word) : Statement (.cmdEeprom ah al data crc) :=
  ⟨⟨_, rfl⟩, by simp [encode, commandFrame, beBytes, totalLength]⟩

theorem response (data : List Byte) (crc : Word) : Statement (.response data crc) :=
  ⟨⟨_, rfl⟩, by simp [encode, responseFrame, beBytes, totalLength]⟩

end Sys2Proof.Laws.Layout
end

