-- ==== Sys2Proof/Laws/Step.lean ====
section
/-! SUPPORT. What an instruction and what a step can do, said once. -/

namespace Sys2Proof.Machine

/-- Every instruction completes: no meaning of this machine stops. -/
theorem exec_next (i : Instr) (s : State) : ∃ t, exec i s = .next t := by
  cases i with
  | fBuild t ah al data =>
    simp only [exec, execFBuild]
    split <;> exact ⟨_, rfl⟩
  | pStart f =>
    simp only [exec, execPStart]
    split <;> exact ⟨_, rfl⟩
  | pPayload =>
    simp only [exec, execPPayload]
    split <;> exact ⟨_, rfl⟩
  | _ => exact ⟨_, rfl⟩

/-- The instruction that a bare command frame is. -/
theorem exec_commandType (t : CommandType) (ah al : Byte) (data : List Byte) (crc : Word) (s : State) :
    exec (t.instr ah al data crc) s = .next (s.transmit (commandFrame t.byte ah al data crc)) := by
  cases t <;> rfl

/-- All that an instruction can do: unit C's registers and a return string; a return string alone; the busy
mark; one write; the start of an exchange; bytes arriving. -/
theorem exec_cases {i : Instr} {s t : State} (h : exec i s = .next t) :
    (∃ c p r, ofUnitC i = true ∧ t = ((s.setCrc c).setPoly p).reply .ok r) ∨
    (∃ k r, (∃ a b c d, i = .fBuild a b c d) ∧ t = s.reply k r) ∨
    (∃ k r, (i = .pStatus ∨ i = .pPayload) ∧ t = s.reply k r) ∨
    (writesToTransport i = true ∧ s.pstate.reading = true ∧ t = s.raiseFault .exchangeBusy) ∨
    (∃ f, writesToTransport i = true ∧ s.pstate.reading = false ∧ (∀ g, i ≠ .pStart g) ∧ t = s.sendOnly f) ∨
    (∃ f, i = .pStart f ∧ s.pstate.reading = false ∧ t = s.startExchange f) ∨
    (∃ data crc, i = .response data crc ∧ t = s.receive (responseFrame data crc)) := by
  have key : ∀ f, writesToTransport i = true → (∀ g, i ≠ .pStart g) → t = s.transmit f →
      (writesToTransport i = true ∧ s.pstate.reading = true ∧ t = s.raiseFault .exchangeBusy) ∨
      (∃ f, writesToTransport i = true ∧ s.pstate.reading = false ∧ (∀ g, i ≠ .pStart g) ∧ t = s.sendOnly f) := by
    intro f hw hn ht
    cases hr : s.pstate.reading with
    | true => exact .inl ⟨hw, rfl, by rw [ht, State.transmit_of_reading hr]⟩
    | false => exact .inr ⟨f, hw, rfl, hn, by rw [ht, State.transmit_of_quiescent hr]⟩
  cases i with
  | cInit => cases h; exact .inl ⟨_, s.poly, _, rfl, rfl⟩
  | cBit d => cases h; exact .inl ⟨_, s.poly, _, rfl, rfl⟩
  | cByte x => cases h; exact .inl ⟨_, s.poly, _, rfl, rfl⟩
  | cPoly p => cases h; exact .inl ⟨s.crc, _, _, rfl, rfl⟩
  | cRead => cases h; exact .inl ⟨s.crc, s.poly, _, rfl, rfl⟩
  | fBuild a b c d =>
    simp only [exec, execFBuild] at h
    split at h <;> cases h <;> exact .inr (.inl ⟨_, _, ⟨_, _, _, _, rfl⟩, rfl⟩)
  | pStatus => cases h; exact .inr (.inr (.inl ⟨_, _, .inl rfl, rfl⟩))
  | pPayload =>
    simp only [exec, execPPayload] at h
    split at h <;> cases h <;> exact .inr (.inr (.inl ⟨_, _, .inr rfl, rfl⟩))
  | pStart f =>
    simp only [exec, execPStart] at h
    split at h
    · rename_i hr
      cases h
      exact .inr (.inr (.inr (.inl ⟨rfl, hr, rfl⟩)))
    · rename_i hr
      cases h
      exact .inr (.inr (.inr (.inr (.inr (.inl ⟨f, rfl, by simpa using hr, rfl⟩)))))
  | pSend f =>
    cases h
    rcases key f rfl (by simp) rfl with h | h
    · exact .inr (.inr (.inr (.inl h)))
    · exact .inr (.inr (.inr (.inr (.inl h))))
  | cmdRead ah al data crc =>
    cases h
    rcases key _ rfl (by simp) rfl with h | h
    · exact .inr (.inr (.inr (.inl h)))
    · exact .inr (.inr (.inr (.inr (.inl h))))
  | cmdWrite ah al data crc =>
    cases h
    rcases key _ rfl (by simp) rfl with h | h
    · exact .inr (.inr (.inr (.inl h)))
    · exact .inr (.inr (.inr (.inr (.inl h))))
  | cmdEeprom ah al data crc =>
    cases h
    rcases key _ rfl (by simp) rfl with h | h
    · exact .inr (.inr (.inr (.inl h)))
    · exact .inr (.inr (.inr (.inr (.inl h))))
  | response data crc => cases h; exact .inr (.inr (.inr (.inr (.inr (.inr ⟨data, crc, rfl, rfl⟩)))))

/-- The port's decoder gives port operations only. -/
theorem decodePort_channel {bs rest : List Byte} {i : Instr} (h : decode .port bs = .ok (i, rest)) :
    i.channel = .port := by
  simp only [decode] at h
  unfold decodePort at h
  split at h
  · cases h
  · split at h
    · unfold decodeOperands at h
      repeat' split at h
      all_goals first | cases h; rfl | cases h
    · cases h

/-- All that taking an operation from the port can be: nothing there; a refused input; an instruction. -/
theorem State.takePort_cases (s : State) :
    (s.port = [] ∧ s.takePort = .become s) ∨
    (∃ e, s.port ≠ [] ∧ decode .port s.port = .error e ∧ s.takePort = .become s.refuse) ∨
    (∃ i rest, decode .port s.port = .ok (i, rest) ∧ s.takePort = .run i { s with port := rest }) := by
  unfold State.takePort
  split
  · rename_i hp
    exact .inl ⟨hp, rfl⟩
  · rename_i hp
    refine .inr ?_
    split
    · rename_i i rest hd
      exact .inr ⟨i, rest, hd, rfl⟩
    · rename_i e hd
      exact .inl ⟨e, by simp [hp], hd, rfl⟩

/-- All that bytes from the device can be: one response, or bytes that just arrive. -/
theorem State.takeInbound_cases (bs : List Byte) (s : State) :
    (∃ data crc, bs = responseFrame data crc ∧ s.takeInbound bs = .run (.response data crc) s) ∨
    s.takeInbound bs = .become (s.receive bs) := by
  unfold State.takeInbound
  split
  · rename_i i hd
    obtain ⟨data, crc, rfl, hbs, -⟩ := decodeResponse_eq_ok hd
    exact .inl ⟨data, crc, by simpa using hbs, rfl⟩
  · exact .inr rfl

/-- All that bytes handed over as a command frame can be: one command frame, or a stop. -/
theorem State.takeOutbound_cases (bs : List Byte) (s : State) :
    (∃ (ty : CommandType) (ah al : Byte) (data : List Byte) (crc : Word),
      bs = commandFrame ty.byte ah al data crc ∧ s.takeOutbound bs = .run (ty.instr ah al data crc) s) ∨
    s.takeOutbound bs = .stop .notACommandFrame := by
  unfold State.takeOutbound
  split
  · rename_i i hd
    obtain ⟨ty, ah, al, data, crc, rfl, hbs, -⟩ := decodeFrame_eq_ok hd
    exact .inl ⟨ty, ah, al, data, crc, by simpa using hbs, rfl⟩
  · exact .inr rfl

/-- A step that answers a next state ran an instruction to it or became it, from a state without a fault. -/
theorem step_next {s t : State} (h : step s = .next t) :
    s.fault = none ∧ ((∃ i u, s.nextAction = .run i u ∧ exec i u = .next t) ∨ s.nextAction = .become t) := by
  unfold step at h
  split at h
  · cases h
  · rename_i hf
    split at h
    · rename_i i u ha
      exact ⟨hf, .inl ⟨i, u, ha, h⟩⟩
    · rename_i u ha
      cases h
      exact ⟨hf, .inr ha⟩
    · cases h

theorem step_of_run {s u : State} {i : Instr} (hf : s.fault = none) (h : s.nextAction = .run i u) :
    step s = exec i u := by
  simp [step, hf, h]

theorem step_of_become {s t : State} (hf : s.fault = none) (h : s.nextAction = .become t) : step s = .next t := by
  simp [step, hf, h]

/-- The seven kinds of step: a read step; an empty port; a refused input; an operation of the port; bytes from
the device; a bare command frame; a reset. In each, `{ s with agenda := ag }` is the state without the move. -/
theorem step_cases {s t : State} (h : step s = .next t) :
    s.fault = none ∧
      ((∃ ag, ((s.agenda = [] ∧ ag = []) ∨ s.agenda = .read :: ag) ∧ t = State.readStep { s with agenda := ag }) ∨
       (∃ bs ag, s.agenda = .host bs :: ag ∧ s.port ++ bs = [] ∧ t = { s with agenda := ag, port := [] }) ∨
       (∃ bs ag e, s.agenda = .host bs :: ag ∧ s.port ++ bs ≠ [] ∧ decode .port (s.port ++ bs) = .error e ∧
          t = State.refuse { s with agenda := ag }) ∨
       (∃ bs ag i rest, s.agenda = .host bs :: ag ∧ decode .port (s.port ++ bs) = .ok (i, rest) ∧
          s.nextAction = .run i { s with agenda := ag, port := rest } ∧
          exec i { s with agenda := ag, port := rest } = .next t) ∨
       (∃ bs ag, s.agenda = .device bs :: ag ∧ t = State.receive bs { s with agenda := ag }) ∨
       (∃ bs ag ty ah al data crc, s.agenda = .transmit bs :: ag ∧
          s.nextAction = .run (CommandType.instr ty ah al data crc) { s with agenda := ag } ∧
          t = State.transmit (commandFrame ty.byte ah al data crc) { s with agenda := ag }) ∨
       (∃ ag, s.agenda = .reset :: ag ∧ t = State.resetEvent { s with agenda := ag })) := by
  obtain ⟨hf, h⟩ := step_next h
  refine ⟨hf, ?_⟩
  cases ha : s.agenda with
  | nil =>
    have hn : s.nextAction = .become s.readStep := by simp only [State.nextAction, ha]
    have hs : ({ s with agenda := [] } : State) = s := by rw [← ha]
    rcases h with ⟨i, u, hr, -⟩ | hb
    · rw [hn] at hr; cases hr
    · rw [hn] at hb; cases hb
      exact .inl ⟨[], .inl ⟨rfl, rfl⟩, by rw [hs]⟩
  | cons m ag =>
    have hn : s.nextAction = State.takeMove m { s with agenda := ag } := by simp only [State.nextAction, ha]
    cases m with
    | read =>
      rcases h with ⟨i, u, hr, -⟩ | hb
      · rw [hn] at hr; cases hr
      · rw [hn] at hb; cases hb
        exact .inl ⟨ag, .inr rfl, rfl⟩
    | reset =>
      rcases h with ⟨i, u, hr, -⟩ | hb
      · rw [hn] at hr; cases hr
      · rw [hn] at hb; cases hb
        exact .inr (.inr (.inr (.inr (.inr (.inr ⟨ag, rfl, rfl⟩)))))
    | device bs =>
      refine .inr (.inr (.inr (.inr (.inl ⟨bs, ag, rfl, ?_⟩))))
      have hn' : s.nextAction = State.takeInbound bs { s with agenda := ag } := hn
      rcases State.takeInbound_cases bs { s with agenda := ag } with ⟨data, crc, hbs, hc⟩ | hc <;>
        rw [hn', hc] at h <;> rcases h with ⟨i, u, hr, he⟩ | hb
      · cases hr; cases he; rw [hbs]
      · cases hb
      · cases hr
      · cases hb; rfl
    | transmit bs =>
      refine .inr (.inr (.inr (.inr (.inr (.inl ?_)))))
      have hn' : s.nextAction = State.takeOutbound bs { s with agenda := ag } := hn
      rcases State.takeOutbound_cases bs { s with agenda := ag } with ⟨ty, ah, al, data, crc, hbs, hc⟩ | hc <;>
        rw [hn', hc] at h <;> rcases h with ⟨i, u, hr, he⟩ | hb
      · cases hr
        rw [exec_commandType] at he
        cases he
        exact ⟨bs, ag, ty, ah, al, data, crc, rfl, by rw [hn', hc], rfl⟩
      · cases hb
      · cases hr
      · cases hb
    | host bs =>
      have hn' : s.nextAction = State.takePort { s with agenda := ag, port := s.port ++ bs } := hn
      rcases State.takePort_cases { s with agenda := ag, port := s.port ++ bs } with
        ⟨hp, hc⟩ | ⟨e, hp, hd, hc⟩ | ⟨i, rest, hd, hc⟩ <;>
        rw [hn', hc] at h <;> rcases h with ⟨j, u, hr, he⟩ | hb
      · cases hr
      · cases hb
        refine .inr (.inl ⟨bs, ag, rfl, hp, ?_⟩)
        rw [show s.port ++ bs = [] from hp]
      · cases hr
      · cases hb
        exact .inr (.inr (.inl ⟨bs, ag, e, rfl, hp, hd, rfl⟩))
      · cases hr
        exact .inr (.inr (.inr (.inl ⟨bs, ag, i, rest, rfl, hd, by rw [hn', hc], he⟩)))
      · cases hb

end Sys2Proof.Machine
end

