-- ==== Sys2Proof/Laws/Pseudo.lean ====
section
/-! SUPPORT. The small lemmas of the host's sequences and pseudo-operations. -/

namespace Sys2Proof.Machine

@[simp] theorem andThen_next {α : Type} (s : State) (f : State → Host.Outcome α Fault Refusal) :
    andThen (.next s) f = f s := rfl
@[simp] theorem andThen_fault {α : Type} (e : Fault) (f : State → Host.Outcome α Fault Refusal) :
    andThen (.fault e) f = .fault e := rfl
@[simp] theorem andThen_refused {α : Type} (r : Refusal) (f : State → Host.Outcome α Fault Refusal) :
    andThen (.refused r) f = .refused r := rfl

theorem issue_of_clear {i : Instr} {s : State} (h : s.fault = none) : issue i s = exec i s := by
  simp [issue, h]
theorem issue_of_faulted {i : Instr} {s : State} {f : Fault} (h : s.fault = some f) : issue i s = .fault f := by
  simp [issue, h]

@[simp] theorem issueAll_nil (s : State) : issueAll [] s = .next s := rfl
@[simp] theorem issueAll_cons (i : Instr) (is : List Instr) (s : State) :
    issueAll (i :: is) s = andThen (issue i s) (issueAll is) := rfl

@[simp] theorem runSteps_zero (s : State) : runSteps 0 s = .next s := rfl
theorem runSteps_succ (k : Nat) (s : State) : runSteps (k + 1) s = andThen (step s) (runSteps k) := by
  cases h : step s <;> simp [runSteps, h]

@[simp] theorem State.lastReturn_reply (k : ErrorKind) (data : List Byte) (s : State) :
    (s.reply k data).lastReturn = k.code :: data := by
  simp [State.lastReturn, State.reply, List.getLastD_eq_getLast?]

/-- What the host reads in a `P_STATUS` return is whether an exchange is in progress (10_state.md R27). -/
@[simp] theorem showsQuiescent_status (c : Byte) (p : PState) :
    showsQuiescent [c, p.status] = !p.reading := by
  cases p <;> rfl

@[simp] theorem builtFrame_ok (h l : Byte) (frame : List Byte) : builtFrame (0x00#8 :: h :: l :: frame) = some frame := rfl

/-- An operation that fails returns its code alone, in which there is no frame. -/
@[simp] theorem builtFrame_error (k : ErrorKind) : builtFrame [k.code] = none := rfl

theorem execFBuild_of_ok {t ah al : Byte} {data frame : List Byte} (s : State)
    (h : buildFrame t ah al data = .ok frame) :
    exec (.fBuild t ah al data) s = .next (s.reply .ok (beBytes (lenWord (data.length + 8)) ++ frame)) := by
  simp [exec, execFBuild, h]
theorem execFBuild_of_error {t ah al : Byte} {data : List Byte} {k : ErrorKind} (s : State)
    (h : buildFrame t ah al data = .error k) : exec (.fBuild t ah al data) s = .next (s.reply k []) := by
  simp [exec, execFBuild, h]

/-- One poll from a state without a fault: the end of the loop, or the next round. -/
theorem pollUntilQuiescent_cons {gap : Nat} {gaps : List Nat} {s t : State} (h : runSteps gap s = .next t)
    (hf : t.fault = none) :
    pollUntilQuiescent (gap :: gaps) s =
      if t.pstate.reading = true then pollUntilQuiescent gaps (t.reply .ok [t.pstate.status])
      else andThen (exec .pPayload (t.reply .ok [t.pstate.status])) (fun u => .next (.finished u)) := by
  have hs : exec .pStatus t = .next (t.reply .ok [t.pstate.status]) := rfl
  have hf' : (t.reply .ok [t.pstate.status]).fault = none := hf
  simp only [pollUntilQuiescent, h, andThen_next, issue_of_clear hf, hs, State.lastReturn_reply,
    showsQuiescent_status, issue_of_clear hf']
  cases t.pstate.reading <;> rfl

end Sys2Proof.Machine
end

