-- ==== Sys2Proof/Tests/Slice0.lean ====
section
/-! SUPPORT. The model's own tests. Expected values are the spec's: 30_encoding.md for the words, the tables of
95_test_vectors.md (named V-…) for the results. Then, for each obligation that has hypotheses, a witness that meets
all of them at once. -/

namespace Sys2Proof.Tests

open Sys2Proof Sys2Proof.Machine

/-! ## Helpers -/

/-- One field of the next state, if there is one. -/
def after {α : Type} (o : Host.Outcome State Fault Refusal) (f : State → α) : Option α :=
  match o with
  | .next s => some (f s)
  | .fault _ => none
  | .refused _ => none

/-- A draw with no failure. -/
def good : Draw := { flushFails := false, writeSent := none, read := .byte }

/-- A draw that fails the flush; one that fails the write after two bytes; one that fails a read; a timeout. -/
def badFlush : Draw := { flushFails := true, writeSent := none, read := .byte }
def badWrite : Draw := { flushFails := false, writeSent := some 2, read := .byte }
def badRead : Draw := { flushFails := false, writeSent := none, read := .fail }
def late : Draw := { flushFails := false, writeSent := none, read := .timeout }

/-- The reset state with one coming draw. -/
def ready (d : Draw) : State := { State.reset with tape := [d] }

/-- The frame of `F_BUILD READ, 0x000A, [0x01]` (V-P). -/
def frameP : List Byte := [0x7E, 0x00, 0x07, 0x01, 0x00, 0x0A, 0x01, 0xEE, 0x8A]

/-- In parser state `p`, one byte waiting, the core's read step next. -/
def reading (p : PState) (b : Byte) : State :=
  { ready good with pstate := p, rxq := [b, 0x55], agenda := [.read] }

/-- In parser state `p`, nothing waiting, the draw `d` next. -/
def waiting (p : PState) (d : Draw) : State := { ready d with pstate := p, agenda := [.read] }

/-- `LEN = 1`, `PBUF[0] = 0x32`, `CNT = 1`: the payload of V-P1. -/
def payload32 (p : PState) : State :=
  { ready good with pstate := p, len := 0x01, cnt := 0x01, pbuf := State.reset.pbuf.set 0 0x32, rxcrc := 0x2500 }

/-- One move next, from the reset state. -/
def moving (m : Move) : State := { ready good with agenda := [m] }

/-! ## Well-formedness: each bound refuses a list that is one too long -/

theorem test_wf_fBuild : (Instr.fBuild 0x08 0x00 0x06 (List.replicate 65536 0x00)).wellFormed = false := by
  rw [Instr.wellFormed, List.length_replicate]; decide
theorem test_wf_pStart : (Instr.pStart (List.replicate 65536 0x00)).wellFormed = false := by
  rw [Instr.wellFormed, List.length_replicate]; decide
theorem test_wf_pSend : (Instr.pSend (List.replicate 65536 0x00)).wellFormed = false := by
  rw [Instr.wellFormed, List.length_replicate]; decide
theorem test_wf_cmdRead : (Instr.cmdRead 0x00 0x00 (List.replicate 256 0x00) 0x0000).wellFormed = false := by
  rw [Instr.wellFormed, List.length_replicate]; decide
theorem test_wf_cmdWrite : (Instr.cmdWrite 0x00 0x00 (List.replicate 256 0x00) 0x0000).wellFormed = false := by
  rw [Instr.wellFormed, List.length_replicate]; decide
theorem test_wf_cmdEeprom : (Instr.cmdEeprom 0x00 0x00 (List.replicate 256 0x00) 0x0000).wellFormed = false := by
  rw [Instr.wellFormed, List.length_replicate]; decide
theorem test_wf_response : (Instr.response (List.replicate 256 0x00) 0x0000).wellFormed = false := by
  rw [Instr.wellFormed, List.length_replicate]; decide

/-! ## Decoding: one word for each constructor, written out from R70, R75, R80 -/

theorem test_decode_cInit : decode .port [0x01] = .ok (.cInit, []) := rfl
theorem test_decode_cBit : decode .port [0x02, 0x01, 0x05] = .ok (.cBit true, [0x05]) := rfl
theorem test_decode_cByte : decode .port [0x03, 0x80] = .ok (.cByte 0x80, []) := rfl
theorem test_decode_cPoly : decode .port [0x04, 0x80, 0x05] = .ok (.cPoly 0x8005, []) := rfl
theorem test_decode_cRead : decode .port [0x05] = .ok (.cRead, []) := rfl
/-- V-F1: the address and the count are big-endian. -/
theorem test_decode_fBuild :
    decode .port [0x10, 0x08, 0x12, 0x34, 0x00, 0x02, 0x00, 0xFF] = .ok (.fBuild 0x08 0x12 0x34 [0x00, 0xFF], []) := rfl
theorem test_decode_pStart :
    decode .port [0x20, 0x00, 0x02, 0x7E, 0x00, 0x22] = .ok (.pStart [0x7E, 0x00], [0x22]) := rfl
theorem test_decode_pSend : decode .port [0x21, 0x00, 0x01, 0x00] = .ok (.pSend [0x00], []) := rfl
theorem test_decode_pStatus : decode .port [0x22] = .ok (.pStatus, []) := rfl
theorem test_decode_pPayload : decode .port [0x23] = .ok (.pPayload, []) := rfl
/-- V-F3. -/
theorem test_decode_cmdRead :
    decode .outbound [0x7E, 0x00, 0x07, 0x00, 0x00, 0x00, 0x51, 0x2D] = .ok (.cmdRead 0x00 0x00 [] 0x512D, []) := rfl
/-- V-S1. -/
theorem test_decode_cmdWrite :
    decode .outbound [0x7E, 0x00, 0x08, 0x01, 0x00, 0x06, 0x32, 0xC8, 0x2E]
      = .ok (.cmdWrite 0x00 0x06 [0x32] 0xC82E, []) := rfl
/-- V-F2. -/
theorem test_decode_cmdEeprom :
    decode .outbound [0x7E, 0x00, 0x09, 0x01, 0x00, 0x00, 0x00, 0xDE, 0xC8]
      = .ok (.cmdEeprom 0x00 0x00 [0x00] 0xDEC8, []) := rfl
/-- V-P12: what follows the response is left. -/
theorem test_decode_response :
    decode .inbound [0x02, 0x00, 0x00, 0x01, 0x32, 0x25, 0x20, 0xAA] = .ok (.response [0x32] 0x2520, [0xAA]) := rfl
/-- The refusals of V-"Port decoder". -/
theorem test_decode_refusals :
    decode .port [0x00] = .error (.unassignedOpcode 0x00) ∧ decode .port [0x24] = .error (.unassignedOpcode 0x24) ∧
    decode .port [0x02, 0x02] = .error (.badBitOperand 0x02) ∧ decode .port [0x04, 0x10] = .error .truncated ∧
    decode .port [0x10, 0x08, 0x00, 0x06, 0x00, 0x02, 0x32] = .error .truncated ∧
    decode .port [0x20, 0x00, 0x09, 0x7E, 0x00] = .error .truncated := ⟨rfl, rfl, rfl, rfl, rfl, rfl⟩
/-- R74, R77: an illegal type and a wrong marker are no frame. -/
theorem test_decode_wire_rejects :
    decode .outbound [0x7E, 0x00, 0x0A, 0x00, 0x00, 0x00, 0x00, 0x00] = .error (.illegalCommandType 0x0A) ∧
    decode .outbound [0x00, 0x7E, 0x07] = .error .notACommandHeader ∧
    decode .inbound [0x02, 0x00, 0xFF, 0x00, 0x00, 0x00] = .error .notAResponseMarker := ⟨rfl, rfl, rfl⟩
/-- The table's words of four rows of spec/opcode_table.json, one of each channel and length. -/
theorem test_table_words :
    decodeTableWord 8 0x01 = some .cInit ∧ decodeTableWord 8 0x10 = some (.fBuild 0x00 0x00 0x00 []) ∧
    decodeTableWord 24 0x7E0009 = some (.cmdEeprom 0x00 0x00 [] 0x0000) ∧
    decodeTableWord 24 0x020000 = some (.response [] 0x0000) := by decide +kernel

/-! ## Unit C: V-C1, V-C2, V-C3, V-C4, V-C5 -/

theorem test_cInit : after (exec .cInit { State.reset with crc := 0x31C3 }) (·.crc) = some 0x0000 := by decide
/-- V-C1: both XORs cancel. -/
theorem test_cBit_both : after (exec (.cBit true) { State.reset with crc := 0x8000 }) (·.crc) = some 0x0000 := by
  decide +kernel
theorem test_cBit_top : after (exec (.cBit false) { State.reset with crc := 0x8000 }) (·.crc) = some 0x1021 := by
  decide +kernel
theorem test_cByte_first : after (exec (.cByte 0x80) State.reset) (·.crc) = some 0x9188 := by decide +kernel
theorem test_cByte_middle : after (exec (.cByte 0x56) { State.reset with crc := 0x1234 }) (·.crc) = some 0x3C40 := by
  decide +kernel
theorem test_cPoly : after (exec (.cPoly 0x8005) State.reset) (fun s => (s.crc, s.poly)) = some (0x0000, 0x8005) := by
  decide
theorem test_cRead : after (exec .cRead { State.reset with crc := 0x31C3 }) (·.out) = some [[0x00, 0x31, 0xC3]] := by
  decide
theorem test_crc16_check_value :
    crc16 [0x31, 0x32, 0x33, 0x34, 0x35, 0x36, 0x37, 0x38, 0x39] 0x1021 = 0x31C3 ∧
    crc16 [0x31, 0x32, 0x33, 0x34, 0x35, 0x36, 0x37, 0x38, 0x39] 0x8005 = 0xFEE8 := by decide +kernel

/-! ## Unit F: V-F1, V-F4 -/

theorem test_fBuild :
    after (exec (.fBuild 0x08 0x00 0x06 [0x32]) State.reset) (·.out)
      = some [[0x00, 0x00, 0x09, 0x7E, 0x00, 0x08, 0x01, 0x00, 0x06, 0x32, 0xC8, 0x2E]] := by decide +kernel
/-- V-F1, the last row: the type is checked before the length. -/
theorem test_fBuild_order :
    after (exec (.fBuild 0x0B 0x00 0x00 (List.replicate 256 0x00)) State.reset) (·.out) = some [[0x04]] ∧
    after (exec (.fBuild 0x08 0x00 0x00 (List.replicate 256 0x00)) State.reset) (·.out) = some [[0x05]] := by
  decide +kernel
theorem test_pSend :
    after (exec (.pSend [0x7E, 0x00]) (ready good)) (fun s => (s.hist, s.out, s.pstate))
      = some ([.write [0x7E, 0x00]], [[0x00]], .idle) := by decide
theorem test_pSend_fails :
    after (exec (.pSend [0x7E, 0x00, 0x09]) (ready badWrite)) (fun s => (s.hist, s.out, s.pstate))
      = some ([.writeFail [0x7E, 0x00]], [[0x03]], .idle) := by decide
/-- V-F3's frame on the wire. -/
theorem test_cmdRead :
    after (exec (.cmdRead 0x00 0x00 [] 0x512D) (ready good)) (·.hist)
      = some [.write [0x7E, 0x00, 0x07, 0x00, 0x00, 0x00, 0x51, 0x2D]] := by decide
theorem test_cmdWrite :
    after (exec (.cmdWrite 0x00 0x06 [0x32] 0xC82E) (ready good)) (·.hist)
      = some [.write [0x7E, 0x00, 0x08, 0x01, 0x00, 0x06, 0x32, 0xC8, 0x2E]] := by decide
theorem test_cmdEeprom :
    after (exec (.cmdEeprom 0x00 0x00 [0x00] 0xDEC8) (ready good)) (·.hist)
      = some [.write [0x7E, 0x00, 0x09, 0x01, 0x00, 0x00, 0x00, 0xDE, 0xC8]] := by decide

/-! ## Unit P: V-P, V-T, V-X, V-B, V-Q -/

/-- R161's example: what was in RXQ is flushed. -/
theorem test_pStart :
    after (exec (.pStart frameP) { ready good with rxq := [0x55] }) (fun s => (s.rxq, s.hist, s.pstate, s.out))
      = some ([], [.flush, .write frameP, .delay], .expect02, [[0x00]]) := by decide
/-- V-X1. -/
theorem test_pStart_flush_fails :
    after (exec (.pStart frameP) { ready badFlush with rxq := [0x55] }) (fun s => (s.rxq, s.hist, s.pstate, s.out))
      = some ([0x55], [.flushFail], .transportError, [[0x03]]) := by decide
/-- V-B. -/
theorem test_pStart_busy :
    after (exec (.pStart frameP) { ready good with pstate := .expect02 }) (fun s => (s.fault, s.out, s.hist))
      = some (some .exchangeBusy, [], []) := by decide
/-- R75's response of V-R1. -/
theorem test_response :
    after (exec (.response [0x32] 0x2520) { ready good with rxq := [0xAA] }) (·.rxq)
      = some [0xAA, 0x02, 0x00, 0x00, 0x01, 0x32, 0x25, 0x20] := by decide
theorem test_pStatus : after (exec .pStatus (reading .readData 0x00)) (·.out) = some [[0x00, 0x05]] := by decide
theorem test_pPayload : after (exec .pPayload (payload32 .done)) (·.out) = some [[0x00, 0x01, 0x32]] := by
  decide +kernel
/-- V-Q: no payload outside DONE. -/
theorem test_pPayload_error : after (exec .pPayload (payload32 .checksumError)) (·.out) = some [[0x02]] := by decide
/-- V-P4, V-P5 and V-P6: one byte is read and the rest stays. -/
theorem test_read_marker :
    after (step (reading .expect02 0x06)) (fun s => (s.pstate, s.rxq)) = some (.noResponse, [0x55]) ∧
    after (step (reading .expect00a 0x01)) (fun s => (s.pstate, s.rxq)) = some (.noResponse, [0x55]) ∧
    after (step (reading .expect00b 0x00)) (fun s => (s.pstate, s.rxq)) = some (.readLength, [0x55]) := by decide
/-- V-P2: an empty payload goes straight to the CRC. -/
theorem test_read_length :
    after (step (reading .readLength 0x00)) (fun s => (s.pstate, s.len)) = some (.readCrcHi, 0x00) ∧
    after (step (reading .readLength 0xFF)) (fun s => (s.pstate, s.len)) = some (.readData, 0xFF) := by decide
/-- R171's example. -/
theorem test_read_data :
    after (step { reading .readData 0x32 with len := 0x01 }) (fun s => (s.pstate, s.cnt, s.pbuf[0]))
      = some (.readCrcHi, 0x01, 0x32) := by decide +kernel
/-- V-P1 and V-P8, the last byte. -/
theorem test_read_crc :
    after (step { payload32 .readCrcLo with rxq := [0x20], agenda := [.read] }) (fun s => (s.pstate, s.rxcrc))
      = some (.done, 0x2520) ∧
    after (step { payload32 .readCrcLo with rxq := [0x21], agenda := [.read] }) (fun s => (s.pstate, s.rxcrc))
      = some (.checksumError, 0x2521) := by decide +kernel
/-- V-T1, V-T3 and V-T6. -/
theorem test_timeout :
    after (step { waiting .expect02 late with params := { headerTimeout := true, bodyTimeout := false, turnaroundDelay := 50 } })
      (fun s => (s.pstate, s.hist)) = some (.noResponse, [.readTimeout]) ∧
    after (step (waiting .expect02 late)) (fun s => (s.pstate, s.hist)) = some (.expect02, []) ∧
    after (step { waiting .readData late with params := { headerTimeout := true, bodyTimeout := false, turnaroundDelay := 50 } })
      (fun s => (s.pstate, s.hist)) = some (.readData, []) := by decide
/-- V-X3, the last step. -/
theorem test_read_fails :
    after (step { waiting .readData badRead with rxq := [0x22] }) (fun s => (s.pstate, s.hist, s.rxq))
      = some (.transportError, [.readFail], [0x22]) := by decide

/-! ## Steps -/

/-- The input `06` is refused: nothing but the mark. -/
theorem test_refused_input :
    after (step (moving (.host [0x06]))) (fun s => (s.refused, s.out, s.hist, s.crc)) = some (true, [], [], 0x0000) := by
  decide
/-- V-Z1. -/
theorem test_reset_event :
    after (step { payload32 .done with crc := 0x1234, poly := 0x8005, rxq := [0x55], agenda := [.reset] })
      (fun s => (s.crc, s.poly, s.pstate, s.len, s.rxq)) = some (0x0000, 0x1021, .idle, 0x00, [0x55]) := by decide
/-- V-B: a faulted state takes no step. -/
theorem test_faulted_state : step { State.reset with fault := some .exchangeBusy } = .fault .exchangeBusy := rfl
/-- Log entry 3: a tail that waits behind an executed operation is completed by the next host move. -/
theorem test_port_tail :
    after (step { moving (.host [0x05]) with port := [0x04, 0x10] }) (fun s => (s.poly, s.port, s.refused))
      = some (0x1005, [], false) := by decide
/-- Two operations on the port: the first runs, the second waits. -/
theorem test_port_order :
    after (step (moving (.host [0x04, 0x80, 0x05, 0x01]))) (fun s => (s.poly, s.port)) = some (0x8005, [0x01]) := by decide

/-! ## Witnesses: the hypotheses of each obligation, met together -/

/-- For PortStringsDecodeAsTheTableSays and FBuildReturnsTheFrameOrItsError: counts of 0, 2 and 256. -/
theorem witness_counts :
    ([] : List Byte).length = 256 * (0x00 : Byte).toNat + (0x00 : Byte).toNat ∧
    ([0x00, 0xFF] : List Byte).length = 256 * (0x00 : Byte).toNat + (0x02 : Byte).toNat ∧
    (List.replicate 256 (0x00 : Byte)).length = 256 * (0x01 : Byte).toNat + (0x00 : Byte).toNat := by decide +kernel
theorem witness_EncodeThenDecode :
    (Instr.cmdWrite 0x00 0x06 (List.replicate 255 0x00) 0x0000).wellFormed = true ∧
    (Instr.fBuild 0x08 0x00 0x06 (List.replicate 256 0x00)).wellFormed = true ∧
    (Instr.pSend []).wellFormed = true := by decide +kernel
theorem witness_AcceptedBytes :
    (∃ i rest, decode .port [0x02, 0x01, 0x05] = .ok (i, rest)) ∧
    (∃ i rest, decode .outbound [0x7E, 0x00, 0x07, 0x00, 0x00, 0x00, 0x51, 0x2D] = .ok (i, rest)) ∧
    (∃ i rest, decode .inbound [0x02, 0x00, 0x00, 0x00, 0x00, 0x00] = .ok (i, rest)) := ⟨⟨_, _, rfl⟩, ⟨_, _, rfl⟩, ⟨_, _, rfl⟩⟩
theorem witness_BadBitAndTruncated :
    ((0x02 : Byte) ≠ 0x00 ∧ (0x02 : Byte) ≠ 0x01) ∧
    (∀ k ∈ [0, 2], (Instr.cPoly 0x8005).wellFormed = true ∧ (Instr.cPoly 0x8005).channel = .port ∧
      k < (encode (.cPoly 0x8005)).length) := by decide
theorem witness_StepRunsTheDecoded :
    (moving (.host [0x02, 0x01])).fault = none ∧
    (∃ ag, (moving (.host [0x02, 0x01])).agenda = .host [0x02, 0x01] :: ag) ∧
    decode .port ((moving (.host [0x02, 0x01])).port ++ [0x02, 0x01]) = .ok (.cBit true, []) ∧
    decode .outbound [0x7E, 0x00, 0x07, 0x00, 0x00, 0x00, 0x51, 0x2D] = .ok (.cmdRead 0x00 0x00 [] 0x512D, []) ∧
    decode .inbound [0x02, 0x00, 0x00, 0x00, 0x00, 0x00] = .ok (.response [] 0x0000, []) :=
  ⟨rfl, ⟨_, rfl⟩, rfl, rfl, rfl⟩
theorem witness_PlacedInstruction :
    State.reset.fault = none ∧ Instr.pStatus.wellFormed = true ∧ (Instr.response [] 0x0000).wellFormed = true ∧
    (Instr.cmdRead 0x00 0x00 [] 0x512D).wellFormed = true := by decide
theorem witness_RefusedInput :
    (moving (.host [0x06])).fault = none ∧ (moving (.host [0x06])).agenda = [.host [0x06]] ∧
    (moving (.host [0x06])).port ++ [0x06] ≠ [] ∧
    decode .port ((moving (.host [0x06])).port ++ [0x06]) = .error (.unassignedOpcode 0x06) :=
  ⟨rfl, rfl, by decide, rfl⟩
theorem witness_FaultedState : (State.raiseFault .exchangeBusy State.reset).fault = some .exchangeBusy := rfl
/-- Over with nothing left to move, and over while the device, a read and a reset are still to come. -/
theorem witness_OverRun :
    (State.reset.Good ∧ State.reset.fault = none ∧ State.reset.agenda = []) ∧
    ({ State.reset with agenda := [.device [0x55], .read, .reset] } : State).Good := by
  refine ⟨⟨⟨⟨⟨rfl, by simp [State.reset]⟩, rfl, rfl⟩, rfl, rfl⟩, rfl, rfl⟩, ⟨⟨⟨rfl, ?_⟩, rfl, rfl⟩, rfl, rfl⟩⟩
  simp [Move.issues]
/-- An operation still to come: not over. -/
theorem test_not_over : ¬ ({ State.reset with agenda := [.host [0x22]] } : State).Over := by
  simp [State.Over, State.HostDone, Move.issues]
theorem witness_Crc16Laws : ([0x12, 0x34] : List Byte).length = ([0x00, 0xFF] : List Byte).length := rfl
theorem witness_FeedingBytes : State.reset.crc = State.reset.crc ∧ State.reset.poly = State.reset.poly := ⟨rfl, rfl⟩
theorem witness_UnitC :
    (ofUnitC .pStatus = false ∧ ∃ t, exec .pStatus State.reset = .next t) ∧
    (ofUnitC .cInit = true ∧ ∃ t, exec .cInit State.reset = .next t) := ⟨⟨rfl, _, rfl⟩, ⟨rfl, _, rfl⟩⟩
theorem witness_FBuild :
    ((0x07 : Byte) ∈ ([0x07, 0x08, 0x09] : List Byte) ∧ (List.replicate 255 (0x00 : Byte)).length ≤ 255) ∧
    (∀ t ∈ ([0x06, 0x0A, 0x00, 0xFF] : List Byte), t ∉ ([0x07, 0x08, 0x09] : List Byte)) ∧
    ((0x09 : Byte) ∈ ([0x07, 0x08, 0x09] : List Byte) ∧ (List.replicate 256 (0x00 : Byte)).length > 255) := by
  decide +kernel
/-- V-F3: the shortest frame. -/
theorem built_shortest : buildFrame 0x07 0x00 0x00 [] = .ok [0x7E, 0x00, 0x07, 0x00, 0x00, 0x00, 0x51, 0x2D] := by
  have h : crcDefault (crcInput 0x07 0x00 0x00 []) = 0x512D := by decide +kernel
  show Except.ok (commandFrame 0x07 0x00 0x00 [] (crcDefault (crcInput 0x07 0x00 0x00 []))) = _
  rw [h]; rfl
theorem witness_BuiltFrame :
    exec (.fBuild 0x07 0x00 0x00 []) State.reset
      = .next (State.reset.reply .ok [0x00, 0x08, 0x7E, 0x00, 0x07, 0x00, 0x00, 0x00, 0x51, 0x2D]) ∧
    (State.reset.reply .ok [0x00, 0x08, 0x7E, 0x00, 0x07, 0x00, 0x00, 0x00, 0x51, 0x2D]).out
      = State.reset.out ++ [0x00 :: 0x00 :: 0x08 :: [0x7E, 0x00, 0x07, 0x00, 0x00, 0x00, 0x51, 0x2D]] := by
  refine ⟨?_, rfl⟩
  rw [exec, execFBuild, built_shortest]; rfl
theorem witness_BuiltFrameDecodes : (List.replicate 255 (0x7E : Byte)).length ≤ 255 := by decide +kernel
/-- For PSendWritesAndReadsNothing, CommandFramesAreWritten…, SendCmdSends… and PStartStartsAnExchange. -/
theorem witness_quiescent_writes :
    (ready good).pstate.reading = false ∧ (ready good).draw.writeSent = none ∧ (ready good).draw.flushFails = false ∧
    (ready badWrite).pstate.reading = false ∧ (ready badWrite).draw.writeSent = some 2 := by decide
theorem built_too_long (data : List Byte) (h : data.length = 256) :
    buildFrame 0x07 0x00 0x00 data = .error .payloadTooLong := if_pos (by rw [h]; decide)
theorem witness_SendCmd :
    buildFrame 0x07 0x00 0x00 [] = .ok [0x7E, 0x00, 0x07, 0x00, 0x00, 0x00, 0x51, 0x2D] ∧
    buildFrame 0x0A 0x00 0x00 [] = .error .invalidCommandType ∧
    buildFrame 0x07 0x00 0x00 (List.replicate 256 0x00) = .error .payloadTooLong :=
  ⟨built_shortest, rfl, built_too_long _ List.length_replicate⟩
/-- A faultless state and a machine whose next steps do not stop, in a reading and in a quiescent state. -/
theorem witness_polls :
    State.reset.fault = none ∧ runSteps 0 State.reset = .next State.reset ∧ State.reset.pstate.reading = false ∧
    ∃ u, runSteps 1 (reading .expect02 0x02) = .next u ∧ u.fault = none ∧ u.pstate.reading = true :=
  ⟨rfl, rfl, rfl, _, rfl, rfl, rfl⟩
/-- XCHG with a failed flush (V-X1, V-Q): TRANSPORT_ERROR is quiescent, so the first poll ends the loop. -/
theorem test_xchg_ends :
    (match pseudoXchg [0, 0] 0x07 0x00 0x00 [] (ready badFlush) with
      | .next (.finished s) => some (s.hist, s.out.drop 1)
      | _ => none) = some ([.flushFail], [[0x03], [0x00, 0x0B], [0x03]]) := by decide +kernel
/-- XCHG with a device that sends nothing is still polling. -/
theorem test_xchg_polls :
    (match pseudoXchg [0, 0] 0x07 0x00 0x00 [] (ready good) with
      | .next (.polling s) => some (s.pstate, s.out.drop 1)
      | _ => none) = some (.expect02, [[0x00], [0x00, 0x01], [0x00, 0x01]]) := by decide +kernel
theorem witness_PStartFailures :
    ((ready badFlush).pstate.reading = false ∧ (ready badFlush).draw.flushFails = true) ∧
    ((ready badWrite).pstate.reading = false ∧ (ready badWrite).draw.flushFails = false ∧
      (ready badWrite).draw.writeSent = some 2) := by decide
/-- For BusyOperationsFault and BusyCommandFramesFault: the first and the last reading state. -/
theorem witness_busy : PState.expect02.reading = true ∧ PState.readCrcLo.reading = true := by decide
theorem witness_OnlyBusy :
    ∃ t, step { moving (.host [0x21, 0x00, 0x00]) with pstate := .expect02 } = .next t ∧ t.fault ≠ none :=
  ⟨_, rfl, by decide⟩
theorem witness_PPayload :
    (payload32 .done).pstate = .done ∧ (payload32 .noResponse).pstate = .noResponse ∧
    (payload32 .checksumError).pstate = .checksumError ∧ (payload32 .transportError).pstate = .transportError ∧
    (payload32 .idle).pstate = .idle ∧ (payload32 .readCrcLo).pstate.reading = true := by decide
theorem witness_NoPayloadLeaks :
    (payload32 .checksumError).pstate ≠ .done ∧ ∃ t, exec .pPayload (payload32 .checksumError) = .next t :=
  ⟨by decide, _, rfl⟩
/-- For the read rules R167 to R173: each state, with the byte that goes on and one that does not. -/
theorem witness_reads :
    ∀ p ∈ [PState.expect02, .expect00a, .expect00b, .readLength, .readCrcHi, .readCrcLo],
      ∀ b ∈ ([0x00, 0x02, 0x06, 0xFF] : List Byte),
        (reading p b).fault = none ∧ (reading p b).agenda = [.read] ∧ (reading p b).rxq = [b, 0x55] ∧
        (reading p b).draw.read ≠ .fail ∧ (reading p b).pstate = p := by decide
/-- For DataByteGoesToTheBuffer: the last data byte of the longest response, and the first. -/
theorem witness_DataByte :
    ({ reading .readData 0x32 with len := 0xFF, cnt := 0xFE } : State).CountOk ∧
    ({ reading .readData 0x32 with len := 0x01, cnt := 0x00 } : State).CountOk ∧
    (reading .readData 0x32).pstate = .readData ∧ (reading .readData 0x32).draw.read ≠ .fail :=
  ⟨by simp [State.CountOk, reading], by simp [State.CountOk, reading], rfl, by decide⟩
theorem witness_Timeouts :
    ∀ p ∈ [PState.expect02, .expect00a, .expect00b, .readLength, .readData, .readCrcHi, .readCrcLo],
      (waiting p late).fault = none ∧ (waiting p late).agenda = [.read] ∧ (waiting p late).rxq = [] ∧
      (waiting p late).draw.read = .timeout ∧ (waiting p late).pstate = p := by decide
/-- Each clause with its parameter true, in every state it names; V-T4's is READLENGTH. -/
theorem witness_Timeouts_enabled :
    (∀ p ∈ [PState.expect02, .expect00a, .expect00b],
      let s : State := { waiting p late with params := { headerTimeout := true, bodyTimeout := false, turnaroundDelay := 50 } }
      s.fault = none ∧ s.agenda = [.read] ∧ s.rxq = [] ∧ s.draw.read = .timeout ∧ s.pstate = p ∧
        s.params.headerTimeout = true) ∧
    (∀ p ∈ [PState.readLength, .readData, .readCrcHi, .readCrcLo],
      let s : State := { waiting p late with params := { headerTimeout := false, bodyTimeout := true, turnaroundDelay := 50 } }
      s.fault = none ∧ s.agenda = [.read] ∧ s.rxq = [] ∧ s.draw.read = .timeout ∧ s.pstate = p ∧
        s.params.bodyTimeout = true) := by decide
/-- V-T4. -/
theorem test_body_timeout :
    after (step { waiting .readLength late with params := { headerTimeout := false, bodyTimeout := true, turnaroundDelay := 50 } })
      (fun s => (s.pstate, s.hist)) = some (.transportError, [.readTimeout]) := by decide
theorem witness_ReadFailure :
    (waiting .readData badRead).fault = none ∧ (waiting .readData badRead).agenda = [.read] ∧
    (waiting .readData badRead).pstate.reading = true ∧ (waiting .readData badRead).draw.read = .fail := by decide
theorem witness_EmptyQueue :
    let s : State := { State.reset with pstate := .readData, tape := [good, late] }
    s.fault = none ∧ s.agenda = [] ∧ s.rxq = [] ∧ s.pstate.reading = true ∧ 2 ≤ s.tape.length ∧
    (∀ d ∈ s.tape, d.read ≠ .fail) ∧ s.params.headerTimeout = false ∧ s.params.bodyTimeout = false := by decide
/-- The device sends part of a response during an exchange. -/
theorem test_device_during_exchange :
    after (step { reading .expect02 0x02 with agenda := [.device [0x02, 0x00]] }) (fun s => (s.rxq, s.pstate))
      = some ([0x02, 0x55, 0x02, 0x00], .expect02) := by decide
theorem witness_device_during_exchange :
    let s : State := { reading .expect02 0x02 with agenda := [.device [0x02, 0x00]] }
    s.fault = none ∧ s.pstate.reading = true ∧ s.agenda = [.device [0x02, 0x00]] := by decide
theorem witness_Quiescent :
    ((moving .read).fault = none ∧ (moving .read).pstate.reading = false ∧ (moving .read).agenda = [.read]) ∧
    (moving (.device [0x55])).agenda = [.device [0x55]] := by decide
theorem witness_Terminal :
    (payload32 .done).pstate.terminal = true ∧ ∃ t, step (payload32 .done) = .next t := ⟨rfl, _, rfl⟩
theorem witness_ResetEvent :
    ({ reading .expect00b 0x00 with agenda := [.reset] } : State).fault = none ∧
    ({ reading .expect00b 0x00 with agenda := [.reset] } : State).agenda = [.reset] := by decide

/-- The state after `P_START f` from reset, with bytes waiting: it meets the invariant. -/
def fresh (q : List Byte) (tape : List Draw) : State :=
  { State.reset with pstate := .expect02, hist := exchangeEvents frameP [], rxq := q, tape := tape }

theorem fresh_inv (q : List Byte) (tape : List Draw) : (fresh q tape).Inv :=
  ⟨rfl, trivial, ⟨[], frameP, rfl⟩⟩

theorem witness_EveryStep : (fresh [0x02] [good]).Inv ∧ ∃ t, step (fresh [0x02] [good]) = .next t :=
  ⟨fresh_inv _ _, _, rfl⟩
/-- An exchange that ended in DONE with an empty payload, one that ended on a wrong first byte, one that timed out. -/
theorem witness_NoExchange :
    ({ State.reset with pstate := .done, hist := exchangeEvents frameP [0x02, 0x00, 0x00, 0x00, 0x00, 0x00] } : State).Inv ∧
    ({ State.reset with pstate := .noResponse, hist := exchangeEvents frameP [0x06] } : State).Inv ∧
    ({ State.reset with pstate := .noResponse, hist := exchangeEvents frameP [] ++ [.readTimeout] } : State).Inv := by
  refine ⟨⟨rfl, show crcDefault [0x00, 0x00] = 0x0000 by decide +kernel, [], frameP, [], rfl, by simp⟩, ⟨trivial, trivial, [], frameP, [0x06], [], rfl, ?_⟩,
    ⟨trivial, trivial, [], frameP, [], [.readTimeout], rfl, ?_⟩⟩
  · exact .inl ⟨.inl ⟨0x06, rfl, by decide⟩, by simp⟩
  · exact .inr ⟨.inl rfl, [], rfl, by simp⟩
/-- For the round trip and the corrupted CRC: a payload of 255 bytes, and a CRC that is not the right one. -/
theorem witness_RoundTrip :
    let s : State := { State.reset with tape := List.replicate 262 good }
    (List.replicate 255 (0x00 : Byte)).length ≤ 255 ∧ s.fault = none ∧ s.pstate.reading = false ∧ s.agenda = [] ∧
    (List.replicate 255 (0x00 : Byte)).length + 7 ≤ s.tape.length ∧ (∀ d ∈ s.tape, TransportSucceeds d) ∧
    (0x2420 : Word) ≠ crcDefault ([0x00, BitVec.ofNat 8 ([0x32] : List Byte).length] ++ [0x32]) := by
  refine ⟨List.length_replicate.le, rfl, rfl, rfl, ?_, fun d hd => ?_, by decide +kernel⟩
  · rw [List.length_replicate]; exact List.length_replicate.ge
  · rw [List.eq_of_mem_replicate hd]; exact ⟨rfl, rfl, rfl⟩
theorem witness_ExchangeEnds :
    let s := fresh (List.replicate 261 0x02) (List.replicate 261 good)
    s.Inv ∧ s.fault = none ∧ s.agenda = [] ∧ s.pstate.reading = true ∧ 261 ≤ s.rxq.length ∧ 261 ≤ s.tape.length ∧
    (∀ d ∈ s.tape, TransportSucceeds d) := by
  refine ⟨fresh_inv _ _, rfl, rfl, rfl, List.length_replicate.ge, List.length_replicate.ge, fun d hd => ?_⟩
  rw [List.eq_of_mem_replicate hd]; exact ⟨rfl, rfl, rfl⟩
/-- For the rules about every step (OnlyTheirOperations…, HistoryOnlyGrows, QueueChanges…, BufferIsWritten…,
ReturnCodes…, ConfigurationNeverChanges): a next state of a C operation, a read, a flush, an arrival, a reset. -/
theorem witness_steps :
    (∃ t, step (moving (.host [0x03, 0x80])) = .next t) ∧ (∃ t, step (reading .readData 0x32) = .next t) ∧
    (∃ t, step (moving (.host [0x20, 0x00, 0x00])) = .next t) ∧ (∃ t, step (moving (.device [0x55])) = .next t) ∧
    (∃ t, step (moving .reset) = .next t) := ⟨⟨_, rfl⟩, ⟨_, rfl⟩, ⟨_, rfl⟩, ⟨_, rfl⟩, ⟨_, rfl⟩⟩
theorem witness_HistoryOnlyGrows : writesToTransport .pStatus = false ∧ ∃ t, exec .pStatus State.reset = .next t :=
  ⟨rfl, _, rfl⟩
theorem witness_Refused :
    (∃ t, step (moving (.host [0x06])) = .next t ∧ (moving (.host [0x06])).refused = false ∧ t.refused = true) ∧
    (∃ t, step { moving .read with refused := true } = .next t) := ⟨⟨_, rfl, rfl, rfl⟩, ⟨_, rfl⟩⟩

end Sys2Proof.Tests
end

section
/-! What the next step runs, given what the bytes of the agenda's first move decode to. -/

namespace Sys2Proof.Machine

theorem State.nextAction_of_agenda_cons {s : State} {m : Move} {ag : List Move} (h : s.agenda = m :: ag) :
    s.nextAction = State.takeMove m { s with agenda := ag } := by
  simp only [State.nextAction, h]

/-- An empty port decodes to nothing, so only the third case of `takePort_cases` is left. -/
theorem State.takePort_of_decode_ok {s : State} {i : Instr} {rest : List Byte}
    (h : decode .port s.port = .ok (i, rest)) : s.takePort = .run i { s with port := rest } := by
  rcases s.takePort_cases with ⟨hp, -⟩ | ⟨e, -, he, -⟩ | ⟨j, rest', hd, hrun⟩
  · rw [hp] at h
    cases h
  · rw [he] at h
    cases h
  · rw [hd] at h
    cases h
    exact hrun

theorem State.takeOutbound_of_decode_ok {s : State} {bs : List Byte} {i : Instr}
    (h : decode .outbound bs = .ok (i, [])) : s.takeOutbound bs = .run i s := by
  simp only [State.takeOutbound, h]

theorem State.takeInbound_of_decode_ok {s : State} {bs : List Byte} {i : Instr}
    (h : decode .inbound bs = .ok (i, [])) : s.takeInbound bs = .run i s := by
  simp only [State.takeInbound, h]

/-- Where the agenda's first move is to run an instruction, the step is that instruction's `exec`. -/
theorem step_of_takeMove_run {s u : State} {m : Move} {ag : List Move} {i : Instr} (hf : s.fault = none)
    (ha : s.agenda = m :: ag) (hm : State.takeMove m { s with agenda := ag } = .run i u) : step s = exec i u :=
  step_of_run hf ((State.nextAction_of_agenda_cons ha).trans hm)

/-- Settles O7: on each channel the move whose bytes decode to an instruction is the action to run it. -/
theorem stepRunsTheDecodedInstruction : Obligations.StepRunsTheDecodedInstruction := by
  intro s ag bs rest i hf
  refine ⟨fun ha hd => ?host, fun ha hd => ?transmit, fun ha hd => ?device⟩
  case host =>
    exact step_of_takeMove_run hf ha
      (State.takePort_of_decode_ok (s := { s with agenda := ag, port := s.port ++ bs }) hd)
  case transmit => exact step_of_takeMove_run hf ha (State.takeOutbound_of_decode_ok hd)
  case device => exact step_of_takeMove_run hf ha (State.takeInbound_of_decode_ok hd)

end Sys2Proof.Machine
end

section
/-! The kinds of step and what an instruction leaves unchanged: the facts that every rule of the whole machine uses. -/

namespace Sys2Proof.Machine

/-- What a step from `s` does to `u`, the state behind the move it takes. The cases are those of `step_cases`; a bare
command frame runs as its instruction does. -/
inductive StepKind (s u : State) : State → Prop
  | read : StepKind s u u.readStep
  | emptyPort : StepKind s u u
  | refuse {bs : List Byte} {ag : List Move} {e : Reject} (ha : s.agenda = .host bs :: ag)
      (hd : decode .port (s.port ++ bs) = .error e) : StepKind s u u.refuse
  | run {i : Instr} {t : State} (ha : s.nextAction = .run i u) (he : exec i u = .next t) : StepKind s u t
  | receive (bs : List Byte) : StepKind s u (u.receive bs)
  | reset {ag : List Move} (ha : s.agenda = .reset :: ag) : StepKind s u u.resetEvent

/-- The state behind the move differs from `s` in the agenda and the port alone. -/
theorem step_kind {s t : State} (h : step s = .next t) :
    ∃ ag p, StepKind s { s with agenda := ag, port := p } t := by
  obtain ⟨-, hread | hempty | hrefuse | hrun | hreceive | htransmit | hreset⟩ := step_cases h
  · obtain ⟨ag, -, rfl⟩ := hread
    exact ⟨ag, _, .read⟩
  · obtain ⟨bs, ag, -, -, rfl⟩ := hempty
    exact ⟨ag, [], .emptyPort⟩
  · obtain ⟨bs, ag, e, ha, -, hd, rfl⟩ := hrefuse
    exact ⟨ag, _, .refuse ha hd⟩
  · obtain ⟨bs, ag, i, rest, -, -, ha, he⟩ := hrun
    exact ⟨ag, rest, .run ha he⟩
  · obtain ⟨bs, ag, -, rfl⟩ := hreceive
    exact ⟨ag, _, .receive bs⟩
  · obtain ⟨bs, ag, ty, ah, al, data, crc, -, ha, rfl⟩ := htransmit
    exact ⟨ag, _, .run ha (exec_commandType ..)⟩
  · obtain ⟨ag, ha, rfl⟩ := hreset
    exact ⟨ag, _, .reset ha⟩

/-- What instruction `i` does to `s`: the cases of `exec_cases`, with all that only return a string taken together. -/
inductive ExecKind (i : Instr) (s : State) : State → Prop
  | unitC (c p : Word) (r : List Byte) (hu : ofUnitC i = true) : ExecKind i s (((s.setCrc c).setPoly p).reply .ok r)
  | reply (k : ErrorKind) (r : List Byte) : ExecKind i s (s.reply k r)
  | busy (hw : writesToTransport i = true) (hr : s.pstate.reading = true) : ExecKind i s (s.raiseFault .exchangeBusy)
  | send (f : List Byte) (hw : writesToTransport i = true) (hq : s.pstate.reading = false) : ExecKind i s (s.sendOnly f)
  | start (f : List Byte) (hw : writesToTransport i = true) : ExecKind i s (s.startExchange f)
  | arrive (bs : List Byte) : ExecKind i s (s.receive bs)

theorem exec_kind {i : Instr} {s t : State} (h : exec i s = .next t) : ExecKind i s t := by
  obtain ⟨c, p, r, hu, rfl⟩ | ⟨k, r, -, rfl⟩ | ⟨k, r, -, rfl⟩ | ⟨hw, hr, rfl⟩ | ⟨f, hw, hq, -, rfl⟩ | ⟨f, rfl, -, rfl⟩ |
    ⟨data, crc, -, rfl⟩ := exec_cases h
  · exact .unitC c p r hu
  · exact .reply k r
  · exact .reply k r
  · exact .busy hw hr
  · exact .send f hw hq
  · exact .start f rfl
  · exact .arrive (responseFrame data crc)

/-- No instruction writes PBUF, the refusal mark or the configuration. -/
theorem exec_frame {i : Instr} {s t : State} (h : exec i s = .next t) :
    t.pbuf = s.pbuf ∧ t.refused = s.refused ∧ t.params = s.params := by
  cases exec_kind h with
  | start => simp [State.startExchange_frame]
  | _ => exact ⟨rfl, rfl, rfl⟩

/-- The instructions of the other units leave unit C's registers (40_crc_engine.md R100). -/
theorem exec_unitC_frame {i : Instr} {s t : State} (hu : ofUnitC i = false) (h : exec i s = .next t) :
    t.crc = s.crc ∧ t.poly = s.poly := by
  cases exec_kind h with
  | unitC _ _ _ hc => simp [hu] at hc
  | start => simp [State.startExchange_frame]
  | _ => exact ⟨rfl, rfl⟩

/-- An instruction sets the fault mark only when it is one that writes to the transport during an exchange. -/
theorem exec_fault {i : Instr} {s t : State} (h : exec i s = .next t) :
    t.fault = s.fault ∨ (s.pstate.reading = true ∧ writesToTransport i = true) := by
  cases exec_kind h with
  | busy hw hr => exact .inr ⟨hr, hw⟩
  | start => simp [State.startExchange_frame]
  | _ => exact .inl rfl

end Sys2Proof.Machine
end

section
/-! The invariant of CNT, verdict and history, operation by operation. -/

namespace Sys2Proof.Machine

/-! ## What leaves the invariant as it is -/

@[simp] theorem State.inv_moved (s : State) (ag : List Move) (p : List Byte) :
    ({ s with agenda := ag, port := p } : State).Inv ↔ s.Inv := Iff.rfl
@[simp] theorem State.inv_setCrc (s : State) (v : Word) : (s.setCrc v).Inv ↔ s.Inv := Iff.rfl
@[simp] theorem State.inv_setPoly (s : State) (v : Word) : (s.setPoly v).Inv ↔ s.Inv := Iff.rfl
@[simp] theorem State.inv_reply (s : State) (k : ErrorKind) (r : List Byte) : (s.reply k r).Inv ↔ s.Inv := Iff.rfl
@[simp] theorem State.inv_receive (s : State) (bs : List Byte) : (s.receive bs).Inv ↔ s.Inv := Iff.rfl
@[simp] theorem State.inv_raiseFault (s : State) (f : Fault) : (s.raiseFault f).Inv ↔ s.Inv := Iff.rfl
@[simp] theorem State.inv_refuse (s : State) : s.refuse.Inv ↔ s.Inv := Iff.rfl
@[simp] theorem State.inv_nextDraw (s : State) : s.nextDraw.Inv ↔ s.Inv := Iff.rfl

/-! ## The invariant in IDLE, in a reading state, after a failure -/

theorem State.inv_of_idle {s : State} (h : s.pstate = .idle) : s.Inv := by
  simp [State.Inv, State.CountOk, State.VerdictOk, State.HistoryOk, h]

/-- A failure event is all that TRANSPORT_ERROR needs (60_exceptions.md R201). -/
theorem State.inv_goTo_transportError (s : State) (e : Event) (he : e.IsFailure) :
    ((s.log e).goTo .transportError).Inv :=
  ⟨trivial, trivial, s.hist, e, [], by simp, he, by simp⟩

/-- `H` ends with an exchange whose reads gave `bs`. -/
def State.HistEndsWith (bs : List Byte) (s : State) : Prop := ∃ pre f, s.hist = pre ++ exchangeEvents f bs

theorem State.HistEndsWith.log_read {s : State} {bs : List Byte} (h : s.HistEndsWith bs) (b : Byte) :
    (s.log (.read b)).HistEndsWith (bs ++ [b]) := by
  obtain ⟨pre, f, hh⟩ := h
  exact ⟨pre, f, by simp [hh, exchangeEvents]⟩

/-- In a reading state the invariant says: CNT is right and `H` ends with what the registers hold. -/
theorem State.inv_iff_of_reading {s : State} (hr : s.pstate.reading = true) :
    s.Inv ↔ s.CountOk ∧ s.HistEndsWith s.received := by
  cases hp : s.pstate with
  | idle | done | checksumError | noResponse | transportError => rw [hp] at hr; cases hr
  | _ => simp [State.Inv, State.VerdictOk, State.HistoryOk, State.HistEndsWith, hp]

/-! ## Sending -/

theorem isSend_append {sends : List Event} {e : Event} (hs : ∀ x ∈ sends, x.IsSend) (he : e.IsSend) :
    ∀ x ∈ sends ++ [e], x.IsSend :=
  List.forall_mem_append.2 ⟨hs, List.forall_mem_singleton.2 he⟩

/-- In a quiescent state one more send follows the exchange that `H` ends with (41_framer.md R136). -/
theorem State.Inv.log_send {s : State} {e : Event} (h : s.Inv) (hq : s.pstate.reading = false) (he : e.IsSend) :
    (s.log e).Inv := by
  obtain ⟨hc, hv, hh⟩ := h
  refine ⟨hc, hv, ?_⟩
  unfold State.HistoryOk at hh ⊢
  cases hp : s.pstate with
  | idle => simp only [State.log_pstate, hp]
  | transportError =>
    simp only [hp, State.log_pstate] at hh ⊢
    obtain ⟨pre, x, post, hx, hf, hs⟩ := hh
    exact ⟨pre, x, post ++ [e], by simp [hx], hf, isSend_append hs he⟩
  | noResponse =>
    simp only [hp, State.log_pstate] at hh ⊢
    obtain ⟨pre, f, bs, post, hx, ⟨hm, hs⟩ | ⟨hm, sends, rfl, hs⟩⟩ := hh
    · exact ⟨pre, f, bs, post ++ [e], by simp [hx], .inl ⟨hm, isSend_append hs he⟩⟩
    · exact ⟨pre, f, bs, _, by simp [hx], .inr ⟨hm, sends ++ [e], rfl, isSend_append hs he⟩⟩
  | done | checksumError =>
    simp only [hp, State.log_pstate] at hh ⊢
    obtain ⟨pre, f, post, hx, hs⟩ := hh
    refine ⟨pre, f, post ++ [e], ?_, isSend_append hs he⟩
    rw [State.log_hist, hx, List.append_assoc]
    rfl
  | _ => rw [hp] at hq; cases hq

theorem State.Inv.sendOnly {s : State} (h : s.Inv) (hq : s.pstate.reading = false) (f : List Byte) :
    (s.sendOnly f).Inv := by
  obtain hs | ⟨k, hs⟩ := s.sendOnly_cases f <;> rw [hs, State.inv_reply] <;>
    exact ((State.inv_nextDraw s).2 h).log_send hq trivial

/-! ## Starting an exchange -/

/-- Whatever the state was, its end is a failure in `H` or an exchange that has read nothing. -/
theorem State.startExchange_inv (s : State) (f : List Byte) : (s.startExchange f).Inv := by
  obtain ⟨-, hs⟩ | ⟨k, -, -, hs⟩ | ⟨-, -, hs⟩ := s.startExchange_cases f <;> rw [hs, State.inv_reply]
  · exact State.inv_goTo_transportError _ .flushFail trivial
  · exact State.inv_goTo_transportError _ (.writeFail (f.take k)) trivial
  · exact (State.inv_iff_of_reading rfl).2 ⟨rfl, s.hist, f, by simp [State.received, exchangeEvents]⟩

/-! ## Processing a byte -/

/-- A header that ends in a mismatch (42_response_parser.md R178). -/
theorem State.inv_goTo_noResponse {s : State} {bs : List Byte} (hm : HeaderMismatch bs) (hh : s.HistEndsWith bs) :
    (s.goTo .noResponse).Inv := by
  obtain ⟨pre, f, hx⟩ := hh
  exact ⟨trivial, trivial, pre, f, bs, [], by simp [hx], .inl ⟨hm, by simp⟩⟩

/-- A marker byte, in a state where the registers show the marker once it has come. -/
theorem State.expectMarker_inv {s : State} {expected b : Byte} {p : PState} (hp : p.reading = true)
    (hc : (s.goTo p).CountOk) (hreceived : (s.goTo p).received = s.received ++ [expected])
    (hmismatch : b ≠ expected → HeaderMismatch (s.received ++ [b])) (hh : s.HistEndsWith (s.received ++ [b])) :
    (s.expectMarker expected p b).Inv := by
  by_cases hb : b = expected
  · subst hb
    rw [State.expectMarker_of_match, State.inv_iff_of_reading hp, hreceived]
    exact ⟨hc, hh⟩
  · rw [State.expectMarker_of_mismatch hb]
    exact State.inv_goTo_noResponse (hmismatch hb) hh

theorem State.takeLength_inv {s : State} {b : Byte} (hp : s.pstate = .readLength)
    (hh : s.HistEndsWith (s.received ++ [b])) : (s.takeLength b).Inv := by
  have hr : s.received ++ [b] = [0x02#8, 0x00#8, 0x00#8] ++ [b] ++ s.pbufPart 0x00#8 := by
    simp [State.received, hp, State.pbufPart]
  rw [hr] at hh
  by_cases hb : b = 0x00#8
  · subst hb
    rw [State.takeLength_of_zero, State.inv_iff_of_reading rfl]
    exact ⟨rfl, hh⟩
  · rw [State.takeLength_of_pos hb, State.inv_iff_of_reading rfl]
    have hpos : b.toNat ≠ 0 := fun h => hb (BitVec.eq_of_toNat_eq h)
    exact ⟨Nat.pos_of_ne_zero hpos, hh⟩

theorem toNat_succ_of_lt {a b : Byte} (h : a.toNat < b.toNat) : (a + 1#8).toNat = a.toNat + 1 := by
  have := b.isLt
  rw [BitVec.toNat_add, BitVec.toNat_ofNat]
  omega

/-- A byte written at `i` is the last of the first `i + 1`. -/
theorem State.pbufPart_writePbuf {s : State} {i n b : Byte} (h : i.toNat < n.toNat) :
    (s.writePbuf i b).pbufPart (i + 1#8) = s.pbufPart i ++ [b] := by
  have hi : i.toNat < s.pbuf.toList.length := by
    have := n.isLt
    rw [State.pbuf_length]
    omega
  rw [State.pbufPart, State.pbufPart, State.writePbuf_toList, toNat_succ_of_lt h, List.take_add_one,
    List.take_set_of_le le_rfl, List.getElem?_set_self hi, Option.toList_some]

theorem State.takeData_inv {s : State} {b : Byte} (hp : s.pstate = .readData) (hc : s.cnt.toNat < s.len.toNat)
    (hh : s.HistEndsWith (s.received ++ [b])) : (s.takeData b).Inv := by
  have hbuf : (s.writePbuf s.cnt b).pbufPart (s.cnt + 1#8) = s.pbufPart s.cnt ++ [b] :=
    State.pbufPart_writePbuf hc
  have hr : s.received ++ [b] =
      [0x02#8, 0x00#8, 0x00#8] ++ [s.len] ++ (s.writePbuf s.cnt b).pbufPart (s.cnt + 1#8) := by
    simp [State.received, hp, hbuf]
  rw [hr] at hh
  by_cases hl : s.cnt + 1#8 = s.len
  · rw [State.takeData_of_last hl, State.inv_iff_of_reading rfl]
    rw [hl] at hh ⊢
    exact ⟨rfl, hh⟩
  · rw [State.takeData_of_more hl, State.inv_iff_of_reading rfl]
    refine ⟨?_, hh⟩
    have hn : (s.cnt + 1#8).toNat ≠ s.len.toNat := fun h => hl (BitVec.eq_of_toNat_eq h)
    have hs := toNat_succ_of_lt hc
    show (s.cnt + 1#8).toNat < s.len.toNat
    omega

theorem State.takeCrcHi_inv {s : State} {b : Byte} (hp : s.pstate = .readCrcHi) (hc : s.cnt = s.len)
    (hh : s.HistEndsWith (s.received ++ [b])) : (s.takeCrcHi b).Inv := by
  refine (State.inv_iff_of_reading rfl).2 ⟨hc, ?_⟩
  have hr : (s.takeCrcHi b).received = s.received ++ [b] := by
    simp [State.takeCrcHi, State.received, hp, State.pbufPart]
  rw [hr]
  exact hh

theorem State.takeCrcLo_inv {s : State} {b : Byte} (hp : s.pstate = .readCrcLo) (hc : s.cnt = s.len)
    (hh : s.HistEndsWith (s.received ++ [b])) : (s.takeCrcLo b).Inv := by
  obtain ⟨pre, f, hx⟩ := hh
  have hr : s.received ++ [b] = [0x02#8, 0x00#8, 0x00#8] ++ [s.len] ++ s.pbufPart s.len ++
      beBytes (be16 (hiByte s.rxcrc) b) := by
    simp [State.received, hp, beBytes]
  rw [hr] at hx
  by_cases hv : s.responseCrc = be16 (hiByte s.rxcrc) b
  · rw [State.takeCrcLo_of_verified hv]
    exact ⟨hc, hv, pre, f, [], by rw [List.append_nil]; exact hx, by simp⟩
  · rw [State.takeCrcLo_of_corrupted hv]
    exact ⟨hc, hv, pre, f, [], by rw [List.append_nil]; exact hx, by simp⟩

/-- A byte read in a reading state: `H` has it already, and its rule puts it where the registers hold it. -/
theorem State.processByte_inv {s : State} {b : Byte} (hr : s.pstate.reading = true) (hc : s.CountOk)
    (hh : s.HistEndsWith (s.received ++ [b])) : (s.processByte b).Inv := by
  unfold State.processByte
  unfold State.CountOk at hc
  cases hp : s.pstate with
  | expect02 =>
    simp only [hp] at hc ⊢
    exact State.expectMarker_inv rfl hc (by simp [State.received, hp])
      (fun hb => .inl ⟨b, by simp [State.received, hp], hb⟩) hh
  | expect00a =>
    simp only [hp] at hc ⊢
    exact State.expectMarker_inv rfl hc (by simp [State.received, hp])
      (fun hb => .inr (.inl ⟨b, by simp [State.received, hp], hb⟩)) hh
  | expect00b =>
    simp only [hp] at hc ⊢
    exact State.expectMarker_inv rfl hc (by simp [State.received, hp])
      (fun hb => .inr (.inr ⟨b, by simp [State.received, hp], hb⟩)) hh
  | readLength => exact State.takeLength_inv hp hh
  | readData =>
    simp only [hp] at hc
    exact State.takeData_inv hp hc hh
  | readCrcHi =>
    simp only [hp] at hc
    exact State.takeCrcHi_inv hp hc hh
  | readCrcLo =>
    simp only [hp] at hc
    exact State.takeCrcLo_inv hp hc hh
  | _ => rw [hp] at hr; cases hr

/-! ## The read step -/

theorem State.headerSoFar_of_header {s : State} (h : s.pstate.header = true) : HeaderSoFar s.received := by
  cases hp : s.pstate with
  | expect02 | expect00a | expect00b => simp [HeaderSoFar, State.received, hp]
  | _ => rw [hp] at h; cases h

/-- A timeout ends a header state with the header bytes read so far, and is a failure in a body state (R175, R176). -/
theorem State.Inv.timeout {s : State} (h : s.Inv) (hr : s.pstate.reading = true) :
    ((s.log .readTimeout).goTo s.pstate.onTimeout).Inv := by
  cases hh : s.pstate.header with
  | false =>
    rw [PState.onTimeout, hh]
    exact State.inv_goTo_transportError s .readTimeout trivial
  | true =>
    obtain ⟨-, pre, f, hx⟩ := (State.inv_iff_of_reading hr).1 h
    rw [PState.onTimeout, hh]
    exact ⟨trivial, trivial, pre, f, s.received, [.readTimeout], by simp [hx],
      .inr ⟨State.headerSoFar_of_header hh, [], rfl, by simp⟩⟩

theorem State.Inv.readStep {s : State} (h : s.Inv) : s.readStep.Inv := by
  obtain ⟨-, hs⟩ | ⟨-, -, hs⟩ | ⟨b, q, hr, -, -, hs⟩ | ⟨hr, -, -, -, hs⟩ | ⟨-, -, -, -, hs⟩ := s.readStep_cases <;>
    rw [hs]
  · exact h
  · exact State.inv_goTo_transportError s.nextDraw .readFail trivial
  · obtain ⟨hc, hh⟩ := (State.inv_iff_of_reading hr).1 h
    exact State.processByte_inv (s := (s.nextDraw.setRxq q).log (.read b)) hr hc (hh.log_read b)
  · exact ((State.inv_nextDraw s).2 h).timeout hr
  · exact (State.inv_nextDraw s).2 h

/-! ## Instructions and steps -/

theorem State.Inv.exec {i : Instr} {s t : State} (h : s.Inv) (he : exec i s = .next t) : t.Inv := by
  cases exec_kind he with
  | send f _ hq => exact h.sendOnly hq f
  | start f => exact s.startExchange_inv f
  | unitC | reply | busy | arrive => simpa using h

/-- Settles O50, by the kind of the step: `State.Inv.readStep` for a read, `State.Inv.exec` for an instruction. -/
theorem everyStepKeepsTheInvariant : Obligations.EveryStepKeepsTheInvariant := by
  intro s t hs h
  obtain ⟨ag, p, hk⟩ := step_kind h
  have hu : ({ s with agenda := ag, port := p } : State).Inv := (State.inv_moved s ag p).2 hs
  cases hk with
  | read => exact hu.readStep
  | emptyPort => exact hu
  | refuse => exact (State.inv_refuse _).2 hu
  | run _ he => exact hu.exec he
  | receive => exact (State.inv_receive _ _).2 hu
  | reset => exact State.inv_of_idle rfl

/-- Settles O49: the state after reset is IDLE, where the invariant asks for nothing. -/
theorem resetMeetsTheInvariant : Obligations.ResetMeetsTheInvariant := State.inv_of_idle rfl

end Sys2Proof.Machine
end

section
/-! The source's register is never masked: its low 16 bits follow the masked one through every step. -/

namespace Sys2Proof.Machine

/-- Bit 16 after the doubling is bit 15 before it, which the low 16 bits hold. -/
theorem ofNat_literalStep (p r : Nat) (d : Bool) :
    BitVec.ofNat 16 (literalStep r d p) = crcStep (BitVec.ofNat 16 r) d (BitVec.ofNat 16 p) := by
  have hdouble : BitVec.ofNat 16 (r * 2) = BitVec.ofNat 16 r <<< 1 := by
    rw [BitVec.shiftLeft_eq_mul_twoPow, BitVec.ofNat_mul]
    rfl
  have hbit : (r * 2).testBit 16 = (BitVec.ofNat 16 r).getLsbD 15 := by
    rw [Nat.testBit_succ, Nat.mul_div_cancel _ two_pos, BitVec.getLsbD_ofNat]
    rfl
  rw [crcStep_eq, ← hdouble, ← hbit, literalStep]
  cases (r * 2).testBit 16 <;> cases d <;> simp [BitVec.ofNat_xor]

theorem ofNat_foldl_literalStep (p r : Nat) (ds : List Bool) :
    BitVec.ofNat 16 (ds.foldl (fun r d => literalStep r d p) r) =
      ds.foldl (fun r d => crcStep r d (BitVec.ofNat 16 p)) (BitVec.ofNat 16 r) :=
  (List.foldl_hom (BitVec.ofNat 16) fun r d => (ofNat_literalStep p r d).symm).symm

theorem ofNat_literalRegister (s : List Byte) (p : Nat) :
    BitVec.ofNat 16 (literalRegister s p) = crc16 s (BitVec.ofNat 16 p) := by
  unfold literalRegister crc16
  exact (List.foldl_hom (BitVec.ofNat 16) fun r x => (ofNat_foldl_literalStep p r (bitsMsbFirst x)).symm).symm

/-- Settles O15: the remainder by 65536 is the value of the low 16 bits. -/
theorem unmaskedRegisterHasCrc16AsItsLowBits : Obligations.UnmaskedRegisterHasCrc16AsItsLowBits := by
  intro s p
  rw [← ofNat_literalRegister, BitVec.toNat_ofNat]

end Sys2Proof.Machine
end

section
/-! Which step writes which part of the state. -/

namespace Sys2Proof.Machine

/-! ## What instructions do to CRC, POLY and H -/

theorem exec_crc {i : Instr} {s t : State} (h : exec i s = .next t) :
    t.crc = s.crc ∨ i = .cInit ∨ (∃ d, i = .cBit d) ∨ ∃ x, i = .cByte x := by
  cases hu : ofUnitC i with
  | false => exact .inl (exec_unitC_frame hu h).1
  | true =>
    cases i with
    | cInit => exact .inr (.inl rfl)
    | cBit d => exact .inr (.inr (.inl ⟨d, rfl⟩))
    | cByte x => exact .inr (.inr (.inr ⟨x, rfl⟩))
    | cPoly p => cases h; exact .inl rfl
    | cRead => cases h; exact .inl rfl
    | _ => cases hu

theorem exec_poly {i : Instr} {s t : State} (h : exec i s = .next t) : t.poly = s.poly ∨ ∃ p, i = .cPoly p := by
  cases hu : ofUnitC i with
  | false => exact .inl (exec_unitC_frame hu h).2
  | true =>
    cases i with
    | cPoly p => exact .inr ⟨p, rfl⟩
    | cInit | cBit | cByte | cRead => cases h; exact .inl rfl
    | _ => cases hu

theorem State.startExchange_hist (s : State) (f : List Byte) :
    ∃ es, (s.startExchange f).hist = s.hist ++ es ∧ es.length ≤ 3 := by
  obtain ⟨-, hs⟩ | ⟨k, -, -, hs⟩ | ⟨-, -, hs⟩ := s.startExchange_cases f <;> rw [hs]
  · exact ⟨[.flushFail], rfl, by simp⟩
  · exact ⟨[.flush, .writeFail (f.take k)], by simp, by simp⟩
  · exact ⟨[.flush, .write f, .delay], by simp, by simp⟩

theorem exec_hist {i : Instr} {s t : State} (h : exec i s = .next t) :
    ∃ es, t.hist = s.hist ++ es ∧ es.length ≤ 3 := by
  cases exec_kind h with
  | send f => exact ⟨[writeEvent f s.draw], rfl, by simp⟩
  | start f => exact s.startExchange_hist f
  | _ => exact ⟨[], (List.append_nil _).symm, by simp⟩

theorem exec_hist_of_not_writesToTransport {i : Instr} {s t : State} (hw : writesToTransport i = false)
    (h : exec i s = .next t) : t.hist = s.hist := by
  cases exec_kind h with
  | send _ hw' | start _ hw' => simp [hw] at hw'
  | _ => rfl

/-! ## What the read step does to H and PBUF -/

theorem State.readStep_hist (s : State) : ∃ es, s.readStep.hist = s.hist ++ es ∧ es.length ≤ 1 := by
  obtain ⟨-, hs⟩ | ⟨-, -, hs⟩ | ⟨b, q, -, -, -, hs⟩ | ⟨-, -, -, -, hs⟩ | ⟨-, -, -, -, hs⟩ := s.readStep_cases <;>
    rw [hs]
  · exact ⟨[], by simp, by simp⟩
  · exact ⟨[.readFail], rfl, by simp⟩
  · exact ⟨[.read b], by simp [State.processByte_frame], by simp⟩
  · exact ⟨[.readTimeout], rfl, by simp⟩
  · exact ⟨[], by simp, by simp⟩

/-- The rules of the states but READDATA do not name PBUF. -/
theorem State.processByte_pbuf (b : Byte) (s : State) :
    (s.processByte b).pbuf = s.pbuf ∨
      (s.pstate = .readData ∧ (s.processByte b).pbuf.toList = s.pbuf.toList.set s.cnt.toNat b) := by
  unfold State.processByte
  cases hp : s.pstate with
  | readData => exact .inr ⟨rfl, s.writePbuf_toList s.cnt b⟩
  | _ => exact .inl rfl

theorem State.readStep_pbuf (s : State) :
    s.readStep.pbuf = s.pbuf ∨ (s.pstate = .readData ∧ ∃ b, s.rxq = b :: s.readStep.rxq ∧
      s.readStep.pbuf.toList = s.pbuf.toList.set s.cnt.toNat b) := by
  obtain ⟨-, hs⟩ | ⟨-, -, hs⟩ | ⟨b, q, -, -, hq, hs⟩ | ⟨-, -, -, -, hs⟩ | ⟨-, -, -, -, hs⟩ := s.readStep_cases <;>
    rw [hs]
  case inr.inr.inl =>
    obtain hb | ⟨hp, hb⟩ := State.processByte_pbuf b ((s.nextDraw.setRxq q).log (.read b))
    · exact .inl hb
    · exact .inr ⟨hp, b, by simp [hq, State.processByte_frame], hb⟩
  all_goals exact .inl rfl

/-! ## The rules of every step -/

/-- Settles O20, by the kind of the step: only `exec` and a reset event reach unit C's registers. -/
theorem onlyTheirOperationsWriteCrcAndPoly : Obligations.OnlyTheirOperationsWriteCrcAndPoly := by
  intro s t h
  obtain ⟨ag, p, hk⟩ := step_kind h
  cases hk with
  | read => simp [State.readStep_frame]
  | run ha he =>
    exact ⟨(exec_crc he).imp id fun hi => .inr ⟨_, _, ha, hi⟩, (exec_poly he).imp id fun hi => .inr ⟨_, _, ha, hi⟩⟩
  | reset ha => exact ⟨.inr (.inl ⟨_, ha⟩), .inr (.inl ⟨_, ha⟩)⟩
  | emptyPort | refuse | receive => exact ⟨.inl rfl, .inl rfl⟩

/-- Settles O33: a step starts without the mark, and `exec_fault` says which instructions set it. -/
theorem onlyBusyOperationsSetTheFault : Obligations.OnlyBusyOperationsSetTheFault := by
  intro s t h
  obtain ⟨hf, -⟩ := step_next h
  refine ⟨hf, fun ht => ?_⟩
  obtain ⟨ag, p, hk⟩ := step_kind h
  cases hk with
  | read => exact absurd hf (by simpa [State.readStep_frame] using ht)
  | run ha he =>
    obtain hsame | ⟨hr, hw⟩ := exec_fault he
    · exact absurd (hsame.trans hf) ht
    · exact ⟨hr, _, _, ha, hw⟩
  | reset => exact absurd rfl ht
  | emptyPort | refuse | receive => exact absurd hf ht

/-- Settles O55: at most one event by a read step, at most three by an instruction, none by the other steps. -/
theorem historyOnlyGrows : Obligations.HistoryOnlyGrows := by
  refine ⟨fun s t h => ?_, fun _ _ _ => exec_hist_of_not_writesToTransport⟩
  obtain ⟨ag, p, hk⟩ := step_kind h
  cases hk with
  | read =>
    obtain ⟨es, hes, hlen⟩ := State.readStep_hist { s with agenda := ag, port := p }
    exact ⟨es, hes, by omega⟩
  | run ha he =>
    obtain ⟨es, hes, hlen⟩ := exec_hist he
    exact ⟨es, hes, hlen⟩
  | emptyPort | refuse | receive | reset => exact ⟨[], (List.append_nil _).symm, by simp⟩

/-- Settles O57: no instruction writes PBUF, and the read step only in READDATA. -/
theorem bufferIsWrittenOnlyByReadData : Obligations.BufferIsWrittenOnlyByReadData := by
  intro s t h
  obtain ⟨ag, p, hk⟩ := step_kind h
  cases hk with
  | read => exact (State.readStep_pbuf _).imp id .inr
  | run ha he => exact .inl (exec_frame he).1
  | reset ha => exact .inr (.inl ⟨_, ha⟩)
  | emptyPort | refuse | receive => exact .inl rfl

/-- All that a step can do to the refusal mark: leave it, set it on a rejected input, clear it by a reset event. -/
theorem step_refused {s t : State} (h : step s = .next t) :
    t.refused = s.refused ∨
    (t.refused = true ∧ ∃ bs ag e, s.agenda = .host bs :: ag ∧ decode .port (s.port ++ bs) = .error e) ∨
    (t.refused = false ∧ ∃ ag, s.agenda = .reset :: ag) := by
  obtain ⟨ag, p, hk⟩ := step_kind h
  cases hk with
  | read => exact .inl (by simp [State.readStep_frame])
  | refuse ha hd => exact .inr (.inl ⟨rfl, _, _, _, ha, hd⟩)
  | run ha he =>
    obtain ⟨-, hrefused, -⟩ := exec_frame he
    exact .inl hrefused
  | reset ha => exact .inr (.inr ⟨rfl, _, ha⟩)
  | emptyPort | receive => exact .inl rfl

/-- Settles O59, by what a step can do to the mark. -/
theorem refusedIsSetOnlyByTheDecoder : Obligations.RefusedIsSetOnlyByTheDecoder := by
  intro s t h
  obtain he | ⟨ht, hd⟩ | ⟨ht, ha⟩ := step_refused h
  · exact ⟨fun hs => .inl (he.trans hs), fun hs ht => absurd (he.symm.trans ht) (by simp [hs])⟩
  · exact ⟨fun _ => .inl ht, fun _ _ => hd⟩
  · exact ⟨fun _ => .inr ha, fun _ ht' => absurd ht' (by simp [ht])⟩

/-- Settles O60: no instruction, no read step and no reset event names the configuration. -/
theorem configurationNeverChanges : Obligations.ConfigurationNeverChanges := by
  intro s t h
  obtain ⟨ag, p, hk⟩ := step_kind h
  cases hk with
  | read => simp [State.readStep_frame]
  | run ha he =>
    obtain ⟨-, -, hparams⟩ := exec_frame he
    exact hparams
  | emptyPort | refuse | receive | reset => rfl

end Sys2Proof.Machine
end

section
/-! The fault stop, `P_STATUS`, the state after reset and the reset event. -/

namespace Sys2Proof.Machine

theorem step_of_faulted {s : State} {f : Fault} (h : s.fault = some f) : step s = .fault f := by
  simp only [step, h]

/-- Settles O10: the first step stops, so no later one is taken. -/
theorem faultedStateTakesNoStep : Obligations.FaultedStateTakesNoStep := by
  intro s f k h
  rw [runSteps_succ, step_of_faulted h, andThen_fault]

/-- Settles O34: the meaning of `P_STATUS`, and the twelve codes by evaluation. -/
theorem pStatusReturnsTheStateCode : Obligations.PStatusReturnsTheStateCode :=
  ⟨fun _ => rfl, by decide⟩

/-- Settles O47: the fields of `State.reset`. -/
theorem resetStateHoldsTheSpecValues : Obligations.ResetStateHoldsTheSpecValues :=
  ⟨rfl, rfl, rfl, rfl, rfl, rfl, rfl, rfl, rfl⟩

/-- Settles O48: PBUF takes the free value of the draw counter. -/
theorem resetEventSetsTheResetValues : Obligations.ResetEventSetsTheResetValues := by
  intro s ag hf ha
  exact ⟨Config.freePbuf s.drawn, step_of_become hf (State.nextAction_of_agenda_cons ha)⟩

end Sys2Proof.Machine
end

section
/-! Each channel's decoder reads a well-formed instruction back from its own bytes. -/

namespace Sys2Proof

theorem decode_port_opcode (o : Opcode) (bs : List Byte) : decode .port (o.byte :: bs) = decodeOperands o bs := by
  simp [decode, decodePort]

theorem decode_commandFrame (ty : CommandType) (ah al : Byte) {data : List Byte} (crc : Word) (rest : List Byte)
    (h : data.length ≤ Config.maxPayload) :
    decode .outbound (commandFrame ty.byte ah al data crc ++ rest) = .ok (ty.instr ah al data crc, rest) := by
  simp [decode, commandFrame, decodeFrame, decodeCommandBody, decodePayloadCrc_append data rest crc h]

theorem decode_responseFrame {data : List Byte} (crc : Word) (rest : List Byte)
    (h : data.length ≤ Config.maxPayload) :
    decode .inbound (responseFrame data crc ++ rest) = .ok (.response data crc, rest) := by
  simp [decode, responseFrame, decodeResponse, decodeResponseBody, decodePayloadCrc_append data rest crc h]

/-- The decoder inverts the encoder: on the port by the opcode and its operands, on the wires by the frame. -/
theorem decode_encode {i : Instr} (hw : i.wellFormed = true) (rest : List Byte) :
    decode i.channel (encode i ++ rest) = .ok (i, rest) := by
  cases i with
  | cInit => exact decode_port_opcode .cInit rest
  | cBit d => cases d <;> exact decode_port_opcode .cBit _
  | cByte x => exact decode_port_opcode .cByte _
  | cPoly p =>
    refine (decode_port_opcode .cPoly _).trans ?_
    simp [beBytes, decodeOperands]
  | cRead => exact decode_port_opcode .cRead rest
  | fBuild t ah al data =>
    refine (decode_port_opcode .fBuild _).trans ?_
    simp [decodeOperands, decodeCounted_encodeCounted data rest (of_decide_eq_true hw)]
  | pStart f =>
    refine (decode_port_opcode .pStart _).trans ?_
    simp [decodeOperands, decodeCounted_encodeCounted f rest (of_decide_eq_true hw)]
  | pSend f =>
    refine (decode_port_opcode .pSend _).trans ?_
    simp [decodeOperands, decodeCounted_encodeCounted f rest (of_decide_eq_true hw)]
  | pStatus => exact decode_port_opcode .pStatus rest
  | pPayload => exact decode_port_opcode .pPayload rest
  | cmdRead ah al data crc => exact decode_commandFrame .read ah al crc rest (of_decide_eq_true hw)
  | cmdWrite ah al data crc => exact decode_commandFrame .write ah al crc rest (of_decide_eq_true hw)
  | cmdEeprom ah al data crc => exact decode_commandFrame .eeprom ah al crc rest (of_decide_eq_true hw)
  | response data crc => exact decode_responseFrame crc rest (of_decide_eq_true hw)

namespace Machine

/-- Bytes placed on a channel that are exactly one instruction there are what the next step runs (log entry 15). -/
theorem step_place {s : State} {c : Channel} {bs : List Byte} {i : Instr} (hf : s.fault = none)
    (hd : decode c bs = .ok (i, [])) :
    step (s.place c bs) = exec i (if c = .port then { s with port := [] } else s) := by
  cases c with
  | port =>
    exact step_of_takeMove_run (s := s.place .port bs) hf rfl
      (State.takePort_of_decode_ok (s := { s with port := bs }) hd)
  | outbound => exact step_of_takeMove_run (s := s.place .outbound bs) hf rfl (State.takeOutbound_of_decode_ok hd)
  | inbound => exact step_of_takeMove_run (s := s.place .inbound bs) hf rfl (State.takeInbound_of_decode_ok hd)

/-- Settles O8: the encoding, with nothing after it, decodes on its channel to the instruction. -/
theorem placedInstructionRunsNext : Obligations.PlacedInstructionRunsNext := by
  intro s i hf hw
  have hd : decode i.channel (encode i) = .ok (i, []) := by simpa using decode_encode hw []
  exact step_place hf hd

end Machine

end Sys2Proof
end

section
/-! The operations that only return, the single write of `P_SEND`, and what reaches RXQ. -/

namespace Sys2Proof.Machine

/-! ## Operations without a side effect (20_memory.md R61) -/

/-- `i` completes at `s`, returns `r` and changes nothing else, whatever strings were returned before. -/
def ReturnsOnly (i : Instr) (s : State) (r : List Byte) : Prop :=
  ∀ o, exec i { s with out := o } = .next { s with out := o ++ [r] }

theorem returnsOnly_cRead (s : State) : ReturnsOnly .cRead s (0x00#8 :: beBytes s.crc) := fun _ => rfl

theorem returnsOnly_pStatus (s : State) : ReturnsOnly .pStatus s [0x00#8, s.pstate.status] := fun _ => rfl

/-- In each state `P_PAYLOAD` has one return string, of PSTATE, LEN and PBUF alone. -/
theorem exists_returnsOnly_pPayload (s : State) : ∃ r, ReturnsOnly .pPayload s r := by
  unfold ReturnsOnly
  simp only [exec, execPPayload]
  cases s.pstate with
  | done => exact ⟨0x00#8 :: s.len :: s.pbufPart s.len, fun _ => rfl⟩
  | _ => exact ⟨_, fun _ => rfl⟩

/-- A repetition starts from the same state but for the strings returned, so it returns the same again. -/
theorem ReturnsOnly.execAll_replicate {i : Instr} {s : State} {r : List Byte} (h : ReturnsOnly i s r) (k : Nat)
    (o : List (List Byte)) :
    execAll (List.replicate k i) { s with out := o } = .next { s with out := o ++ List.replicate k r } := by
  induction k generalizing o with
  | zero => simp [execAll]
  | succ k ih => simp [List.replicate_succ, execAll, h o, ih]

/-- Settles O36: each of the three operations only returns, and so it repeats. -/
theorem readOperationsAreRepeatable : Obligations.ReadOperationsAreRepeatable := by
  intro s i hi
  have hr : ∃ r, ReturnsOnly i s r := by
    simp only [List.mem_cons, List.not_mem_nil, or_false] at hi
    obtain rfl | rfl | rfl := hi
    · exact ⟨_, returnsOnly_cRead s⟩
    · exact ⟨_, returnsOnly_pStatus s⟩
    · exact exists_returnsOnly_pPayload s
  obtain ⟨r, hr⟩ := hr
  exact ⟨r, hr s.out, fun k => hr.execAll_replicate k s.out⟩

/-! ## The write of `P_SEND` -/

theorem exec_pSend_of_quiescent {s : State} (f : List Byte) (h : s.pstate.reading = false) :
    exec (.pSend f) s = .next (s.sendOnly f) :=
  congrArg Host.Outcome.next (State.transmit_of_quiescent h)

/-- Settles O25: the draw says which of the two ends of `sendOnly` it is. -/
theorem pSendWritesAndReadsNothing : Obligations.PSendWritesAndReadsNothing := by
  intro s f hq
  rw [exec_pSend_of_quiescent f hq]
  refine ⟨fun hd => ?sent, fun k hd => ?failed⟩
  case sent =>
    rw [State.sendOnly_of_sent hd]
    rfl
  case failed =>
    rw [State.sendOnly_of_failed hd]
    rfl

/-! ## Arrivals and the quiescent parser -/

theorem exec_response (data : List Byte) (crc : Word) (s : State) :
    exec (.response data crc) s = .next (s.receive (responseFrame data crc)) := rfl

/-- Settles O27: a response's bytes are received. -/
theorem responseArrivesInTheQueue : Obligations.ResponseArrivesInTheQueue :=
  fun s data crc => exec_response data crc s

/-- Whether or not the bytes are one response, they are received (20_memory.md R69). -/
theorem step_device {s : State} {bs : List Byte} {ag : List Move} (hf : s.fault = none)
    (ha : s.agenda = .device bs :: ag) : step s = .next (State.receive bs { s with agenda := ag }) := by
  have hn : s.nextAction = State.takeInbound bs { s with agenda := ag } := State.nextAction_of_agenda_cons ha
  obtain ⟨data, crc, rfl, hrun⟩ | hbecome := State.takeInbound_cases bs { s with agenda := ag }
  · rw [step_of_run hf (hn.trans hrun), exec_response]
  · exact step_of_become hf (hn.trans hbecome)

theorem State.readStep_of_quiescent {s : State} (h : s.pstate.reading = false) : s.readStep = s := by
  simp [State.readStep, h]

theorem step_read {s : State} {ag : List Move} (hf : s.fault = none) (ha : s.agenda = .read :: ag) :
    step s = .next (State.readStep { s with agenda := ag }) :=
  step_of_become hf (State.nextAction_of_agenda_cons ha)

/-- Settles O45: a read step of a quiescent state is no change, and a device move is an arrival. -/
theorem quiescentParserReadsNothing : Obligations.QuiescentParserReadsNothing := by
  intro s ag hf
  refine ⟨fun hq ha => ?read, fun bs ha => step_device hf ha⟩
  have hsame := State.readStep_of_quiescent (s := { s with agenda := ag }) hq
  rw [step_read hf ha, hsame]

/-! ## Who changes RXQ -/

/-- A read step takes the head of RXQ and records it, or leaves RXQ (R58). -/
theorem State.readStep_rxq (s : State) :
    s.readStep.rxq = s.rxq ∨
      ∃ b, s.rxq = b :: s.readStep.rxq ∧ s.readStep.hist = s.hist ++ [.read b] ∧ s.pstate.reading = true := by
  obtain ⟨-, hs⟩ | ⟨-, -, hs⟩ | ⟨b, q, hr, -, hq, hs⟩ | ⟨-, -, -, -, hs⟩ | ⟨-, -, -, -, hs⟩ := s.readStep_cases <;>
    rw [hs]
  · exact .inl rfl
  · exact .inl rfl
  · exact .inr ⟨b, by simp [hq, State.processByte_frame], by simp [State.processByte_frame], hr⟩
  · exact .inl rfl
  · exact .inl rfl

/-- A flush that succeeds empties RXQ and comes first in what is recorded; one that fails leaves RXQ (R59). -/
theorem State.startExchange_rxq (s : State) (f : List Byte) :
    (s.startExchange f).rxq = s.rxq ∨
      ((s.startExchange f).rxq = [] ∧ ∃ es, (s.startExchange f).hist = s.hist ++ .flush :: es) := by
  obtain ⟨-, hs⟩ | ⟨k, -, -, hs⟩ | ⟨-, -, hs⟩ := s.startExchange_cases f <;> rw [hs]
  · exact .inl rfl
  · exact .inr ⟨rfl, [.writeFail (f.take k)], by simp⟩
  · exact .inr ⟨rfl, [.write f, .delay], by simp⟩

/-- No operation of the port but a `P_START` that flushes touches RXQ. -/
theorem exec_rxq_of_port {i : Instr} {s t : State} (hc : i.channel = .port) (h : exec i s = .next t) :
    t.rxq = s.rxq ∨ (t.rxq = [] ∧ ∃ es, t.hist = s.hist ++ .flush :: es) := by
  obtain ⟨c, p, r, -, rfl⟩ | ⟨k, r, -, rfl⟩ | ⟨k, r, -, rfl⟩ | ⟨-, -, rfl⟩ | ⟨f, -, -, -, rfl⟩ | ⟨f, -, -, rfl⟩ |
    ⟨data, crc, rfl, -⟩ := exec_cases h
  · exact .inl rfl
  · exact .inl rfl
  · exact .inl rfl
  · exact .inl rfl
  · exact .inl rfl
  · exact s.startExchange_rxq f
  · cases hc

/-- Settles O56, by the seven kinds of step: a read step reads, the port flushes, the device's bytes arrive. -/
theorem queueChangesOnlyByReadFlushAndArrival : Obligations.QueueChangesOnlyByReadFlushAndArrival := by
  intro s t h
  obtain ⟨-, hread | hempty | hrefuse | hrun | hdevice | htransmit | hreset⟩ := step_cases h
  · obtain ⟨ag, -, rfl⟩ := hread
    exact (State.readStep_rxq { s with agenda := ag }).imp id .inl
  · obtain ⟨bs, ag, -, -, rfl⟩ := hempty
    exact .inl rfl
  · obtain ⟨bs, ag, e, -, -, -, rfl⟩ := hrefuse
    exact .inl rfl
  · obtain ⟨bs, ag, i, rest, -, hd, -, he⟩ := hrun
    exact (exec_rxq_of_port (decodePort_channel hd) he).imp id fun hflush => .inr (.inl hflush)
  · obtain ⟨bs, ag, ha, rfl⟩ := hdevice
    exact .inr (.inr (.inr ⟨bs, ag, ha, rfl, rfl⟩))
  · obtain ⟨bs, ag, ty, ah, al, data, crc, -, -, rfl⟩ := htransmit
    exact .inl (by simp [State.transmit_frame])
  · obtain ⟨ag, -, rfl⟩ := hreset
    exact .inl rfl

end Sys2Proof.Machine
end

section
/-! What the decoders accept is what the encoder writes, and a rejection other than a truncation is final. -/

namespace Sys2Proof

/-- Settles O3: the decoder inverts the encoder. -/
theorem encodeThenDecodeGivesTheInstruction : Obligations.EncodeThenDecodeGivesTheInstruction :=
  fun _ rest hw => decode_encode hw rest

/-! ## What is accepted -/

/-- The operand bytes accepted after opcode `o` are those the encoder writes after it. -/
theorem decodeOperands_eq_ok {o : Opcode} {bs rest : List Byte} {i : Instr}
    (h : decodeOperands o bs = .ok (i, rest)) : o.byte :: bs = encode i ++ rest ∧ i.wellFormed = true := by
  unfold decodeOperands at h
  split at h
  case h_1 | h_3 | h_5 | h_9 | h_10 => cases h; exact ⟨rfl, rfl⟩
  case h_2 d rest' =>
    split at h
    case h_1 hd =>
      cases h
      obtain rfl : d = 0x00#8 := BitVec.eq_of_toNat_eq hd
      exact ⟨rfl, rfl⟩
    case h_2 hd =>
      cases h
      obtain rfl : d = 0x01#8 := BitVec.eq_of_toNat_eq hd
      exact ⟨rfl, rfl⟩
    case h_3 => cases h
  case h_4 => cases h; exact ⟨by simp [encode, beBytes], rfl⟩
  case h_6 | h_7 | h_8 =>
    split at h
    case h_1 hc =>
      cases h
      obtain ⟨rfl, hlen⟩ := decodeCounted_eq_ok hc
      exact ⟨rfl, decide_eq_true hlen⟩
    case h_2 => cases h
  case h_11 | h_12 | h_13 | h_14 => cases h

theorem decodePort_eq_ok {bs rest : List Byte} {i : Instr} (h : decode .port bs = .ok (i, rest)) :
    bs = encode i ++ rest ∧ i.wellFormed = true := by
  cases bs with
  | nil => cases h
  | cons op bs =>
    simp only [decode, decodePort] at h
    split at h
    case h_1 o ho =>
      rw [← Opcode.byte_of_ofByte? ho]
      exact decodeOperands_eq_ok h
    case h_2 => cases h

/-- Settles O4, channel by channel: on the wires the accepted bytes are a frame's or a response's. -/
theorem acceptedBytesAreTheEncoding : Obligations.AcceptedBytesAreTheEncoding := by
  intro c bs rest i h
  cases c with
  | port =>
    obtain ⟨hbs, hw⟩ := decodePort_eq_ok h
    exact ⟨hbs, hw, Machine.decodePort_channel h⟩
  | outbound =>
    obtain ⟨ty, ah, al, data, crc, rfl, hbs, hlen⟩ := decodeFrame_eq_ok h
    cases ty <;> exact ⟨hbs, decide_eq_true hlen, rfl⟩
  | inbound =>
    obtain ⟨data, crc, rfl, hbs, hlen⟩ := decodeResponse_eq_ok h
    exact ⟨hbs, decide_eq_true hlen, rfl⟩

/-! ## What is rejected -/

/-- A `C_BIT` operand other than 0 and 1 (30_encoding.md R92 (b)). -/
theorem decodeOperands_cBit_of_bad {d : Byte} (rest : List Byte) (h0 : d ≠ 0x00#8) (h1 : d ≠ 0x01#8) :
    decodeOperands .cBit (d :: rest) = .error (.badBitOperand d) := by
  have h0' : d.toNat ≠ 0 := fun h => h0 (BitVec.eq_of_toNat_eq h)
  have h1' : d.toNat ≠ 1 := fun h => h1 (BitVec.eq_of_toNat_eq h)
  unfold decodeOperands
  split <;> simp_all

/-- The two ways operands are rejected (R92 (b), (c)). -/
theorem decodeOperands_eq_error {o : Opcode} {bs : List Byte} {e : Reject} (h : decodeOperands o bs = .error e) :
    e = .truncated ∨
      ∃ d rest, o = .cBit ∧ bs = d :: rest ∧ d ≠ 0x00#8 ∧ d ≠ 0x01#8 ∧ e = .badBitOperand d := by
  unfold decodeOperands at h
  split at h
  case h_1 | h_3 | h_4 | h_5 | h_9 | h_10 => cases h
  case h_2 d rest =>
    split at h
    case h_1 | h_2 => cases h
    case h_3 h0 h1 =>
      cases h
      exact .inr ⟨d, rest, rfl, rfl, fun hd => h0 (congrArg BitVec.toNat hd),
        fun hd => h1 (congrArg BitVec.toNat hd), rfl⟩
  case h_6 | h_7 | h_8 =>
    split at h
    case h_1 => cases h
    case h_2 hc =>
      cases h
      exact .inl (decodeCounted_eq_error hc)
  case h_11 | h_12 | h_13 | h_14 => cases h; exact .inl rfl

/-- A rejection by the port is a truncation, or more bytes do not mend it. -/
theorem decode_port_eq_error {bs : List Byte} {e : Reject} (h : decode .port bs = .error e) :
    e = .truncated ∨ ∀ more, decode .port (bs ++ more) = .error e := by
  cases bs with
  | nil => cases h; exact .inl rfl
  | cons op bs =>
    simp only [decode, decodePort] at h
    split at h
    case h_1 o ho =>
      obtain he | ⟨d, rest, rfl, rfl, h0, h1, rfl⟩ := decodeOperands_eq_error h
      · exact .inl he
      · rw [← Opcode.byte_of_ofByte? ho]
        exact .inr fun more => (decode_port_opcode .cBit _).trans (decodeOperands_cBit_of_bad _ h0 h1)
    case h_2 ho =>
      cases h
      exact .inr fun more => by simp only [List.cons_append, decode, decodePort, ho]

/-- Settles O6: an encoding cut short is not accepted, for it would begin with a whole encoding and leave bytes over;
and its rejection is not final, since the bytes missing make it an operation. -/
theorem badBitAndTruncatedStringsAreRejected : Obligations.BadBitAndTruncatedStringsAreRejected := by
  refine ⟨fun d bs h0 h1 => ?badBit, fun i k hw hc hk => ?truncated⟩
  case badBit => exact (decode_port_opcode .cBit _).trans (decodeOperands_cBit_of_bad bs h0 h1)
  case truncated =>
    have hwhole : decode .port ((encode i).take k ++ (encode i).drop k) = .ok (i, []) := by
      simpa [hc] using decode_encode hw []
    cases hcut : decode .port ((encode i).take k) with
    | ok r =>
      obtain ⟨j, rest⟩ := r
      obtain ⟨hbs, hj⟩ := decodePort_eq_ok hcut
      have hlonger := decode_encode hj (rest ++ (encode i).drop k)
      rw [Machine.decodePort_channel hcut, ← List.append_assoc, ← hbs, hwhole] at hlonger
      simp only [Except.ok.injEq, Prod.mk.injEq, List.nil_eq, List.append_eq_nil_iff, List.drop_eq_nil_iff] at hlonger
      omega
    | error e =>
      obtain rfl | hfinal := decode_port_eq_error hcut
      · rfl
      · rw [hfinal] at hwhole
        cases hwhole

/-! ## The opcode map -/

/-- The ten opcode bytes of 30_encoding.md R83. -/
theorem Opcode.exists_byte_eq_iff {op : Byte} : (∃ o : Opcode, o.byte = op) ↔
    op ∈ ([0x01, 0x02, 0x03, 0x04, 0x05, 0x10, 0x20, 0x21, 0x22, 0x23] : List Byte) := by
  constructor
  · rintro ⟨o, rfl⟩
    cases o <;> decide
  · intro h
    simp only [List.mem_cons, List.not_mem_nil, or_false] at h
    obtain rfl | rfl | rfl | rfl | rfl | rfl | rfl | rfl | rfl | rfl := h
    exacts [⟨.cInit, rfl⟩, ⟨.cBit, rfl⟩, ⟨.cByte, rfl⟩, ⟨.cPoly, rfl⟩, ⟨.cRead, rfl⟩, ⟨.fBuild, rfl⟩, ⟨.pStart, rfl⟩,
      ⟨.pSend, rfl⟩, ⟨.pStatus, rfl⟩, ⟨.pPayload, rfl⟩]

theorem decode_port_eq_unassigned_iff {op : Byte} {bs : List Byte} :
    decode .port (op :: bs) = .error (.unassignedOpcode op) ↔ ¬ ∃ o : Opcode, o.byte = op := by
  constructor
  · rintro h ⟨o, rfl⟩
    rw [decode_port_opcode] at h
    obtain he | ⟨d, rest, -, -, -, -, he⟩ := decodeOperands_eq_error h <;> cases he
  · intro h
    cases ho : Opcode.ofByte? op with
    | some o => exact absurd ⟨o, Opcode.byte_of_ofByte? ho⟩ h
    | none => simp only [decode, decodePort, ho]

/-- Settles O5: an opcode is refused as unassigned when it is no operation's byte. -/
theorem opcodeMapIsExactlyTheTen : Obligations.OpcodeMapIsExactlyTheTen :=
  fun _ _ => decode_port_eq_unassigned_iff.trans (not_congr Opcode.exists_byte_eq_iff)

/-! ## The tables' rows -/

theorem be16_toNat (h l : Byte) : (be16 h l).toNat = 256 * h.toNat + l.toNat := by
  rw [be16, BitVec.toNat_append, ← Nat.shiftLeft_add_eq_or_of_lt l.isLt, Nat.shiftLeft_eq]
  omega

/-- A count whose two bytes are given, and a run of that many bytes (R80). -/
theorem decodeCounted_cons_cons {h l : Byte} {f : List Byte} (rest : List Byte)
    (hf : f.length = 256 * h.toNat + l.toNat) : decodeCounted (h :: l :: (f ++ rest)) = .ok (f, rest) := by
  simp [decodeCounted, be16_toNat, ← hf]

/-- Settles O2: the rows with a count by `decodeCounted_cons_cons`, the others by evaluation. -/
theorem portStringsDecodeAsTheTableSays : Obligations.PortStringsDecodeAsTheTableSays := by
  intro rest
  refine ⟨rfl, rfl, rfl, fun _ => rfl, fun _ _ => rfl, rfl, fun t ah al nh nl d hd => ?build, fun lh ll f hf => ?send,
    rfl, rfl⟩
  case build =>
    refine (decode_port_opcode .fBuild _).trans ?_
    simp [decodeOperands, decodeCounted_cons_cons rest hd]
  case send =>
    have hc := decodeCounted_cons_cons rest hf
    exact ⟨(decode_port_opcode .pStart _).trans (by simp [decodeOperands, hc]),
      (decode_port_opcode .pSend _).trans (by simp [decodeOperands, hc])⟩

/-- Settles O1, by evaluation of the decoder. -/
theorem specWordsDecodeToTheirInstructions : Obligations.SpecWordsDecodeToTheirInstructions :=
  ⟨rfl, rfl, rfl, rfl, rfl, rfl, rfl⟩

end Sys2Proof
end

section
/-! What a refused input does, and the return strings. -/

namespace Sys2Proof.Machine

theorem State.takePort_of_decode_error {s : State} {e : Reject} (hp : s.port ≠ [])
    (h : decode .port s.port = .error e) : s.takePort = .become s.refuse := by
  obtain ⟨hnil, -⟩ | ⟨_, -, -, hrefuse⟩ | ⟨_, _, hd, -⟩ := s.takePort_cases
  · exact absurd hnil hp
  · exact hrefuse
  · rw [hd] at h
    cases h

/-- Settles O9: the host's move becomes the refusal. -/
theorem refusedInputOnlySetsRefused : Obligations.RefusedInputOnlySetsRefused := by
  intro s ag bs e hf ha hp hd
  have htake : State.takePort { s with agenda := ag, port := s.port ++ bs } = .become _ :=
    State.takePort_of_decode_error hp hd
  exact step_of_become hf ((State.nextAction_of_agenda_cons ha).trans htake)

/-! ## Return strings -/

theorem ErrorKind.code_mem (k : ErrorKind) : k.code ∈ ([0x00, 0x01, 0x02, 0x03, 0x04, 0x05, 0x06] : List Byte) := by
  cases k <;> decide

theorem State.startExchange_out (s : State) (f : List Byte) :
    ∃ k r, (s.startExchange f).out = s.out ++ [ErrorKind.code k :: r] := by
  obtain ⟨-, hs⟩ | ⟨_, -, -, hs⟩ | ⟨-, -, hs⟩ := s.startExchange_cases f <;> rw [hs]
  · exact ⟨.transportError, [], rfl⟩
  · exact ⟨.transportError, [], rfl⟩
  · exact ⟨.ok, [], by simp⟩

/-- What is returned begins with an error kind's code (30_encoding.md R82). -/
theorem exec_out {i : Instr} {s t : State} (h : exec i s = .next t) :
    t.out = s.out ∨ ∃ k r, t.out = s.out ++ [ErrorKind.code k :: r] := by
  cases exec_kind h with
  | busy | arrive => exact .inl rfl
  | unitC | reply | send => exact .inr ⟨_, _, rfl⟩
  | start f => exact .inr (s.startExchange_out f)

/-- Settles O58: only an instruction returns a string, and the error kinds have seven codes. -/
theorem returnCodesAreTheSevenKinds : Obligations.ReturnCodesAreTheSevenKinds := by
  intro s t h
  obtain ⟨ag, p, hk⟩ := step_kind h
  cases hk with
  | read => exact .inl (by simp [State.readStep_frame])
  | run _ he =>
    obtain hsame | ⟨k, r, hout⟩ := exec_out he
    · exact .inl hsame
    · exact .inr ⟨k.code, r, hout, k.code_mem⟩
  | emptyPort | refuse | receive | reset => exact .inl rfl

end Sys2Proof.Machine
end

section
/-! The built frame, and frames on their way to the transport. -/

namespace Sys2Proof.Machine

theorem buildFrame_of_legal (ty : CommandType) (ah al : Byte) {data : List Byte}
    (h : data.length ≤ Config.maxPayload) : buildFrame ty.byte ah al data =
      .ok (commandFrame ty.byte ah al data (crcDefault (crcInput ty.byte ah al data))) := by
  simp [buildFrame, h]

/-- Between the two header bytes and the trailer stand the bytes the CRC covers (30_encoding.md R72). -/
theorem commandFrame_crcInput (t ah al : Byte) (data : List Byte) (crc : Word) :
    ((commandFrame t ah al data crc).drop 2).dropLast.dropLast = crcInput t ah al data := by
  have hlayout : (commandFrame t ah al data crc).drop 2 = crcInput t ah al data ++ [hiByte crc] ++ [loByte crc] := by
    simp [commandFrame, crcInput, beBytes]
  rw [hlayout, List.dropLast_concat, List.dropLast_concat]

/-- Settles O24: the built frame is a command frame, whose trailer is the CRC of the bytes before it. -/
theorem builtFrameDecodesToItsCommand : Obligations.BuiltFrameDecodesToItsCommand := by
  intro ty ah al data h
  refine ⟨_, crcDefault (crcInput ty.byte ah al data), buildFrame_of_legal ty ah al h, ?decodes, ?crc⟩
  case decodes => simpa using decode_commandFrame ty ah al _ [] h
  case crc => rw [commandFrame_crcInput]

/-- A bare command frame runs as `P_SEND` of its bytes (log entry 11). -/
theorem exec_commandType_eq_pSend (ty : CommandType) (ah al : Byte) (data : List Byte) (crc : Word) (s : State) :
    exec (ty.instr ah al data crc) s = exec (.pSend (commandFrame ty.byte ah al data crc)) s :=
  exec_commandType ty ah al data crc s

/-- Settles O26: `P_SEND` of each of the three frames. -/
theorem commandFramesAreWrittenToTheTransport : Obligations.CommandFramesAreWrittenToTheTransport := by
  intro s ah al data crc hq x hx
  have hty : ∃ ty : CommandType, x = (ty.instr ah al data crc, ty.byte) := by
    simp only [List.mem_cons, List.not_mem_nil, or_false] at hx
    obtain rfl | rfl | rfl := hx
    exacts [⟨.read, rfl⟩, ⟨.write, rfl⟩, ⟨.eeprom, rfl⟩]
  obtain ⟨ty, rfl⟩ := hty
  simp only [exec_commandType_eq_pSend]
  exact pSendWritesAndReadsNothing s (commandFrame ty.byte ah al data crc) hq

end Sys2Proof.Machine
end

section
/-! An exchange ends: each byte read brings a reading state nearer to the end of the longest response. -/

namespace Sys2Proof.Machine

/-- How many bytes an exchange may still read: the longest response (30_encoding.md R76) less what PSTATE, LEN and CNT
say has been read. -/
def State.readsLeft (s : State) : Nat :=
  match s.pstate with
  | .expect02 => 261
  | .expect00a => 260
  | .expect00b => 259
  | .readLength => 258
  | .readData => s.len.toNat - s.cnt.toNat + 2
  | .readCrcHi => 2
  | .readCrcLo => 1
  | .idle | .done | .checksumError | .noResponse | .transportError => 0

theorem State.reading_iff_readsLeft_pos (s : State) : s.pstate.reading = true ↔ 0 < s.readsLeft := by
  unfold State.readsLeft
  cases s.pstate <;> simp [PState.reading, PState.header, PState.body]

theorem State.readsLeft_le (s : State) : s.readsLeft ≤ 261 := by
  have := s.len.isLt
  unfold State.readsLeft
  split <;> omega

/-- A marker byte leads to the next state or to the end, in which no byte is left. -/
theorem State.readsLeft_expectMarker_lt {s : State} {expected b : Byte} {p : PState} {n : Nat}
    (hp : (s.goTo p).readsLeft < n) : (s.expectMarker expected p b).readsLeft < n := by
  by_cases hb : b = expected
  · rw [hb, State.expectMarker_of_match]
    exact hp
  · rw [State.expectMarker_of_mismatch hb]
    exact Nat.zero_lt_of_lt hp

theorem State.readsLeft_takeLength_lt (s : State) (b : Byte) : (s.takeLength b).readsLeft < 258 := by
  have := b.isLt
  by_cases hb : b = 0x00#8
  · rw [hb, State.takeLength_of_zero]
    simp [State.readsLeft]
  · rw [State.takeLength_of_pos hb]
    simp only [State.readsLeft, State.goTo_pstate, State.goTo_len, State.goTo_cnt, State.setCnt_len, State.setCnt_cnt,
      State.setLen_len]
    omega

theorem State.readsLeft_takeData_lt {s : State} (b : Byte) (hc : s.cnt.toNat < s.len.toNat) :
    (s.takeData b).readsLeft < s.len.toNat - s.cnt.toNat + 2 := by
  have hs := toNat_succ_of_lt hc
  by_cases hl : s.cnt + 1#8 = s.len
  · rw [State.takeData_of_last hl]
    simp only [State.readsLeft, State.goTo_pstate]
    omega
  · rw [State.takeData_of_more hl]
    simp only [State.readsLeft, State.goTo_pstate, State.goTo_len, State.goTo_cnt, State.setCnt_len, State.setCnt_cnt,
      State.writePbuf_len]
    omega

theorem State.readsLeft_takeCrcLo (s : State) (b : Byte) : (s.takeCrcLo b).readsLeft = 0 := by
  by_cases hv : s.responseCrc = be16 (hiByte s.rxcrc) b
  · rw [State.takeCrcLo_of_verified hv]
    rfl
  · rw [State.takeCrcLo_of_corrupted hv]
    rfl

theorem State.readsLeft_processByte_lt {s : State} (b : Byte) (hr : s.pstate.reading = true) (hc : s.CountOk) :
    (s.processByte b).readsLeft < s.readsLeft := by
  unfold State.processByte
  unfold State.CountOk at hc
  cases hp : s.pstate with
  | expect02 | expect00a | expect00b =>
    simp only [State.readsLeft, hp]
    exact State.readsLeft_expectMarker_lt (by simp [State.readsLeft])
  | readLength =>
    simp only [State.readsLeft, hp]
    exact s.readsLeft_takeLength_lt b
  | readData =>
    simp only [hp] at hc
    simp only [State.readsLeft, hp]
    exact State.readsLeft_takeData_lt b hc
  | readCrcHi => simp [State.takeCrcHi, State.readsLeft, hp]
  | readCrcLo => exact (s.readsLeft_takeCrcLo b).trans_lt (s.reading_iff_readsLeft_pos.1 hr)
  | _ => rw [hp] at hr; cases hr

/-! ## Runs of read steps -/

/-- With the agenda used up the core takes its read step (70_reset_and_hazards.md R243, log entry 1). -/
theorem step_of_agenda_nil {s : State} (hf : s.fault = none) (ha : s.agenda = []) : step s = .next s.readStep :=
  step_of_become hf (by simp only [State.nextAction, ha])

theorem State.readStep_of_byte {s : State} {b : Byte} {q : List Byte} (hr : s.pstate.reading = true)
    (hd : s.draw.read ≠ .fail) (hq : s.rxq = b :: q) :
    s.readStep = ((s.nextDraw.setRxq q).log (.read b)).processByte b := by
  obtain ⟨h, -⟩ | ⟨-, h, -⟩ | ⟨b', q', -, -, h, hs⟩ | ⟨-, -, h, -⟩ | ⟨-, -, h, -⟩ := s.readStep_cases
  · simp [hr] at h
  · exact absurd h hd
  · rw [hq] at h
    cases h
    exact hs
  · simp [hq] at h
  · simp [hq] at h

theorem State.draw_mem_tape {s : State} (h : s.tape ≠ []) : s.draw ∈ s.tape := by
  unfold State.draw
  cases ht : s.tape with
  | nil => exact absurd ht h
  | cons d ds => exact List.mem_cons_self

/-- The next `n` steps are read steps of the core that find a byte and a draw that succeeds. -/
structure State.Supplied (n : Nat) (s : State) : Prop where
  inv : s.Inv
  fault : s.fault = none
  agenda : s.agenda = []
  queue : n ≤ s.rxq.length
  tape : n ≤ s.tape.length
  succeeds : ∀ d ∈ s.tape, TransportSucceeds d

/-- One such step takes one byte and comes nearer to the exchange's end. -/
theorem State.Supplied.readStep {n : Nat} {s : State} (h : s.Supplied (n + 1)) (hr : s.pstate.reading = true) :
    s.readStep.Supplied n ∧ s.readStep.rxq.length + 1 = s.rxq.length ∧ s.readStep.readsLeft < s.readsLeft := by
  obtain ⟨b, q, hq⟩ := List.exists_cons_of_length_pos (Nat.lt_of_lt_of_le n.succ_pos h.queue)
  have htape : s.tape ≠ [] := List.ne_nil_of_length_pos (Nat.lt_of_lt_of_le n.succ_pos h.tape)
  obtain ⟨-, -, hbyte⟩ := h.succeeds _ (State.draw_mem_tape htape)
  have hstep := State.readStep_of_byte hr (by simp [hbyte]) hq
  obtain ⟨-, -, hfault, -, -, -, -, hagenda⟩ := s.readStep_frame
  have hrxq : s.readStep.rxq = q := by rw [hstep]; simp [State.processByte_frame]
  have htail : s.readStep.tape = s.tape.tail := by rw [hstep]; simp [State.processByte_frame]
  have hqueue := h.queue
  rw [hq, List.length_cons] at hqueue
  refine ⟨⟨h.inv.readStep, hfault.trans h.fault, hagenda.trans h.agenda, ?queue, ?tape, ?succeeds⟩, ?length, ?left⟩
  case queue => rw [hrxq]; omega
  case tape => rw [htail, List.length_tail]; exact Nat.le_sub_one_of_lt h.tape
  case succeeds => exact fun d hd => h.succeeds d (List.mem_of_mem_tail (htail ▸ hd))
  case length => rw [hrxq, hq, List.length_cons]
  case left =>
    obtain ⟨hc, -⟩ := h.inv
    rw [hstep]
    exact State.readsLeft_processByte_lt (s := (s.nextDraw.setRxq q).log (.read b)) b hr hc

/-- By induction on the number of steps, of which the exchange needs at most as many as it has bytes left. -/
theorem State.Supplied.exists_runSteps {n : Nat} {s : State} (h : s.Supplied n) (hn : s.readsLeft ≤ n) :
    ∃ k t, k ≤ n ∧ runSteps k s = .next t ∧ t.pstate.reading = false ∧ t.rxq.length + k = s.rxq.length := by
  induction n generalizing s with
  | zero =>
    have hq : ¬ s.pstate.reading = true := by rw [State.reading_iff_readsLeft_pos]; omega
    exact ⟨0, s, le_rfl, rfl, by simpa using hq, rfl⟩
  | succ n ih =>
    cases hr : s.pstate.reading with
    | false => exact ⟨0, s, Nat.zero_le _, rfl, hr, rfl⟩
    | true =>
      obtain ⟨hs, hlen, hleft⟩ := h.readStep hr
      obtain ⟨k, t, hk, hrun, ht, htlen⟩ := ih hs (by omega)
      refine ⟨k + 1, t, by omega, ?_, ht, by omega⟩
      rw [runSteps_succ, step_of_agenda_nil h.fault h.agenda, andThen_next, hrun]

/-- Settles O54: no state has more than 261 bytes left. -/
theorem exchangeEndsWithinTheLongestResponse : Obligations.ExchangeEndsWithinTheLongestResponse := by
  intro s hi hf ha _ hq ht hd
  exact State.Supplied.exists_runSteps ⟨hi, hf, ha, hq, ht, hd⟩ s.readsLeft_le

end Sys2Proof.Machine
end

section
/-! The host's sequences: operations in order, CRC16, SENDCMD and XCHG. -/

namespace Sys2Proof.Machine

/-! ## Operations in order -/

theorem execAll_cons (i : Instr) (is : List Instr) (s : State) :
    execAll (i :: is) s = andThen (exec i s) (execAll is) := by
  cases h : exec i s <;> simp [execAll, h]

theorem execAll_append (is js : List Instr) (s : State) :
    execAll (is ++ js) s = andThen (execAll is s) (execAll js) := by
  induction is generalizing s with
  | nil => rfl
  | cons i is ih =>
    obtain ⟨t, ht⟩ := exec_next i s
    rw [List.cons_append, execAll_cons, execAll_cons, ht, andThen_next, andThen_next, ih]

/-- Only an instruction that writes to the transport sets the mark that would stop the host's sequence. -/
theorem issueAll_eq_execAll {is : List Instr} {s : State} (hf : s.fault = none)
    (hw : ∀ i ∈ is, writesToTransport i = false) : issueAll is s = execAll is s := by
  induction is generalizing s with
  | nil => rfl
  | cons i is ih =>
    obtain ⟨hi, his⟩ := List.forall_mem_cons.1 hw
    obtain ⟨t, ht⟩ := exec_next i s
    have htf : t.fault = none := by
      obtain hsame | ⟨-, hwrites⟩ := exec_fault ht
      · exact hsame.trans hf
      · rw [hi] at hwrites
        cases hwrites
    rw [issueAll_cons, issue_of_clear hf, execAll_cons, ht, andThen_next, andThen_next, ih htf his]

/-! ## CRC16 -/

/-- One `C_BYTE` for each byte runs the byte steps in order (40_crc_engine.md R115). -/
theorem execAll_cBytes (bs : List Byte) (s : State) :
    execAll (bs.map Instr.cByte) s = .next { s with
      crc := bs.foldl (fun r x => crcByte r x s.poly) s.crc
      out := s.out ++ List.replicate bs.length [0x00] } := by
  induction bs generalizing s with
  | nil => simp [execAll]
  | cons x bs ih =>
    have hx : exec (.cByte x) s = .next ((s.setCrc (crcByte s.crc x s.poly)).reply .ok []) := rfl
    rw [List.map_cons, execAll_cons, hx, andThen_next, ih]
    simp [State.setCrc, State.reply, ErrorKind.code, List.replicate_succ]

theorem execAll_crc16 (p : Word) (bs : List Byte) (s : State) :
    execAll ([.cPoly p, .cInit] ++ bs.map Instr.cByte) s = .next { s with
      poly := p
      crc := crc16 bs p
      out := s.out ++ List.replicate (bs.length + 2) [0x00] } := by
  have hset : execAll [.cPoly p, .cInit] s =
      .next { s with poly := p, crc := Config.crcInit, out := s.out ++ [[0x00]] ++ [[0x00]] } := rfl
  rw [execAll_append, hset, andThen_next, execAll_cBytes]
  simp [crc16, List.replicate_succ]

theorem issueAll_pseudoCrc16 (p : Word) (bs : List Byte) {s : State} (hf : s.fault = none) :
    issueAll (pseudoCrc16 p bs) s = .next { s with
      poly := p
      crc := crc16 bs p
      out := s.out ++ List.replicate (bs.length + 2) [0x00] ++ [0x00 :: beBytes (crc16 bs p)] } := by
  have hw : ∀ i ∈ pseudoCrc16 p bs, writesToTransport i = false := by
    intro i hi
    simp only [pseudoCrc16, List.mem_append, List.mem_cons, List.not_mem_nil, or_false, List.mem_map] at hi
    obtain ((rfl | rfl) | ⟨x, -, rfl⟩) | rfl := hi <;> rfl
  rw [issueAll_eq_execAll hf hw, pseudoCrc16, execAll_append, execAll_crc16]
  rfl

/-- Settles O19: the `C_READ` returns what the operations before it left in CRC. -/
theorem pseudoCrc16ReturnsCrc16 : Obligations.PseudoCrc16ReturnsCrc16 :=
  fun _ bs hf => ⟨fun p => issueAll_pseudoCrc16 p bs hf, issueAll_pseudoCrc16 0x1021 bs hf⟩

/-! ## SENDCMD -/

theorem issueAll_pseudoSendCmd_of_ok {s : State} {t ah al : Byte} {data frame : List Byte} (hf : s.fault = none)
    (hb : buildFrame t ah al data = .ok frame) :
    issueAll (pseudoSendCmd t ah al data) s =
      exec (.pSend frame) (s.reply .ok (beBytes (lenWord (data.length + 8)) ++ frame)) := by
  obtain ⟨v, hv⟩ := exec_next (.pSend frame) (s.reply .ok (beBytes (lenWord (data.length + 8)) ++ frame))
  simp [pseudoSendCmd, hb, issue_of_clear, hf, execFBuild_of_ok s hb, hv]

theorem issueAll_pseudoSendCmd_of_error {s : State} {t ah al : Byte} {data : List Byte} {k : ErrorKind}
    (hf : s.fault = none) (hb : buildFrame t ah al data = .error k) :
    issueAll (pseudoSendCmd t ah al data) s = .next (s.reply k []) := by
  simp [pseudoSendCmd, hb, issue_of_clear hf, execFBuild_of_error s hb]

/-! ## XCHG -/

theorem pseudoXchg_of_ok {s : State} {t ah al : Byte} {data frame : List Byte} (gaps : List Nat)
    (hf : s.fault = none) (hb : buildFrame t ah al data = .ok frame) :
    pseudoXchg gaps t ah al data s =
      andThen (exec (.pStart frame) (s.reply .ok (beBytes (lenWord (data.length + 8)) ++ frame)))
        (pollUntilQuiescent gaps) := by
  simp [pseudoXchg, issue_of_clear, hf, execFBuild_of_ok s hb, ErrorKind.code, beBytes]

theorem pseudoXchg_of_error {s : State} {t ah al : Byte} {data : List Byte} {k : ErrorKind} (gaps : List Nat)
    (hf : s.fault = none) (hb : buildFrame t ah al data = .error k) :
    pseudoXchg gaps t ah al data s = .next (.finished (s.reply k [])) := by
  simp [pseudoXchg, issue_of_clear hf, execFBuild_of_error s hb]

theorem exec_pStart_of_quiescent {s : State} (f : List Byte) (h : s.pstate.reading = false) :
    exec (.pStart f) s = .next (s.startExchange f) := by
  simp [exec, execPStart, h]

theorem exec_pStart_of_reading {s : State} (f : List Byte) (h : s.pstate.reading = true) :
    exec (.pStart f) s = .next (s.raiseFault .exchangeBusy) := by
  simp [exec, execPStart, h]

/-- A faulted state stops the poll loop at its first step or its first `P_STATUS` (60_exceptions.md R205). -/
theorem pollUntilQuiescent_of_faulted {s : State} {f : Fault} (h : s.fault = some f) (gap : Nat) (gaps : List Nat) :
    pollUntilQuiescent (gap :: gaps) s = .fault f := by
  rw [pollUntilQuiescent]
  cases gap with
  | zero => rw [runSteps_zero, andThen_next, issue_of_faulted h, andThen_fault]
  | succ gap => rw [faultedStateTakesNoStep s f gap h, andThen_fault, andThen_fault]

/-- Settles O28: the expansions run as `P_SEND` and as `P_START` of the built frame, and a poll goes by PSTATE. -/
theorem sendCmdSendsTheBuiltFrameOrNothing : Obligations.SendCmdSendsTheBuiltFrameOrNothing := by
  intro s t ah al data hf
  refine ⟨fun frame hb => ⟨fun hq hd => ?sends, fun gaps hq => ?exchange, fun gap gaps hr => ?busy⟩,
    fun k gaps hb => ?illegal, fun gap gaps u hrun hu => ⟨fun hr => ?polls, fun hq => ?ends⟩⟩
  case sends =>
    refine ⟨beBytes (lenWord (data.length + 8)) ++ frame, ?_⟩
    obtain ⟨hsent, -⟩ := pSendWritesAndReadsNothing (s.reply .ok _) frame hq
    rw [issueAll_pseudoSendCmd_of_ok hf hb, hsent hd]
    simp [State.reply, ErrorKind.code]
  case exchange =>
    refine ⟨_, _, execFBuild_of_ok s hb, exec_pStart_of_quiescent frame hq,
      by simpa [State.startExchange_frame] using hf, ?_⟩
    rw [pseudoXchg_of_ok gaps hf hb, exec_pStart_of_quiescent (s := s.reply .ok _) frame hq, andThen_next]
  case busy =>
    rw [pseudoXchg_of_ok _ hf hb, exec_pStart_of_reading (s := s.reply .ok _) frame hr, andThen_next]
    exact pollUntilQuiescent_of_faulted rfl gap gaps
  case illegal => exact ⟨issueAll_pseudoSendCmd_of_error hf hb, pseudoXchg_of_error gaps hf hb⟩
  case polls =>
    rw [pollUntilQuiescent_cons hrun hu, if_pos hr]
    rfl
  case ends =>
    obtain ⟨v, hv⟩ := exec_next .pPayload (u.reply .ok [u.pstate.status])
    refine ⟨v, hv, ?_⟩
    rw [pollUntilQuiescent_cons hrun hu, if_neg (by simp [hq]), hv, andThen_next]

end Sys2Proof.Machine
end

section
/-! The CRC functions: the textbook's byte step and the laws of crc16. -/

namespace Sys2Proof.Machine

/-! ## The textbook's byte step -/

/-- One shift of the textbook's register `r ^^^ v` is a bit step of `r` on the top bit of `v`, the input still to come;
the rest of `v` moves up (40_crc_engine.md R106). -/
theorem textbookShift_xor (r v p : Word) : textbookShift (r ^^^ v) p = crcStep r v.msb p ^^^ v <<< 1 := by
  have hr : r.getLsbD 15 = r.msb := (BitVec.msb_eq_getLsbD_last r).symm
  rw [textbookShift, crcStep_eq, hr, BitVec.msb_xor, BitVec.shiftLeft_xor_distrib]
  cases r.msb ^^ v.msb <;> simp [BitVec.xor_assoc, BitVec.xor_comm p]

theorem foldl_textbookShift_xor (r v p : Word) (n : Nat) :
    (List.range n).foldl (fun r _ => textbookShift r p) (r ^^^ v) =
      ((List.range n).map fun k => (v <<< k).msb).foldl (fun r d => crcStep r d p) r ^^^ v <<< n := by
  induction n with
  | zero => simp
  | succ n ih =>
    simp only [List.range_succ, List.map_append, List.map_singleton, List.foldl_append, List.foldl_cons,
      List.foldl_nil]
    rw [ih, textbookShift_xor, BitVec.shiftLeft_add]

/-- The bits of a byte are the top bits of a register that holds it in the high half, as that is shifted. -/
theorem bitsMsbFirst_eq (x : Byte) :
    bitsMsbFirst x = (List.range 8).map fun k => ((x.setWidth 16 <<< 8 : Word) <<< k).msb := by
  simp [bitsMsbFirst, List.range_succ, BitVec.msb_eq_getLsbD_last]

/-- Settles O16: after eight shifts nothing of the byte in the high half is left. -/
theorem byteStepEqualsTheTextbookForm : Obligations.ByteStepEqualsTheTextbookForm := by
  intro r x p
  have hout : (x.setWidth 16 <<< 8 : Word) <<< 8 = 0#16 := by
    rw [← BitVec.shiftLeft_add, BitVec.shiftLeft_eq_zero le_rfl]
  rw [textbookByte, foldl_textbookShift_xor, hout, BitVec.xor_zero, crcByte, bitsMsbFirst_eq]

/-! ## The laws of crc16 -/

theorem crcStep_zero (d : Bool) (p : Word) : crcStep 0#16 d p = if d then p else 0#16 := by
  simp [crcStep_eq]

theorem crcByte_zero (p : Word) : crcByte 0#16 0x00#8 p = 0#16 := by
  simp [crcByte, bitsMsbFirst, crcStep_zero]

/-- Only the last bit step of 0x01 sees a 1, from a zero register. -/
theorem crcByte_zero_one (p : Word) : crcByte 0#16 0x01#8 p = p := by
  simp [crcByte, bitsMsbFirst, crcStep_zero]

theorem crcByte_zero_poly (x : Byte) : crcByte 0#16 x 0#16 = 0#16 :=
  List.foldl_fixed' (fun d => by simp [crcStep_zero]) (bitsMsbFirst x)

/-- A step that is linear in the register and the input makes a fold that is linear in both. -/
theorem foldl_zipWith_xor {α : Type} {f : Word → α → Word} {g : α → α → α}
    (hf : ∀ r r' x x', f (r ^^^ r') (g x x') = f r x ^^^ f r' x') {a b : List α} (hl : a.length = b.length)
    (r r' : Word) : (List.zipWith g a b).foldl f (r ^^^ r') = a.foldl f r ^^^ b.foldl f r' := by
  induction a generalizing b r r' with
  | nil => cases b with
    | nil => rfl
    | cons y b => cases hl
  | cons x a ih => cases b with
    | nil => cases hl
    | cons y b =>
      rw [List.zipWith_cons_cons, List.foldl_cons, hf, ih (Nat.succ.inj hl), List.foldl_cons, List.foldl_cons]

theorem bitsMsbFirst_xor (x x' : Byte) :
    bitsMsbFirst (x ^^^ x') = List.zipWith (· ^^ ·) (bitsMsbFirst x) (bitsMsbFirst x') := by
  simp [bitsMsbFirst]

theorem crcByte_xor (r r' : Word) (x x' : Byte) (p : Word) :
    crcByte (r ^^^ r') (x ^^^ x') p = crcByte r x p ^^^ crcByte r' x' p := by
  have hl : (bitsMsbFirst x).length = (bitsMsbFirst x').length := rfl
  rw [crcByte, bitsMsbFirst_xor]
  exact foldl_zipWith_xor (f := (crcStep · · p)) (crcStep_xor · · · · p) hl r r'

theorem crc16_xor {a b : List Byte} (hl : a.length = b.length) (p : Word) :
    crc16 (List.zipWith (· ^^^ ·) a b) p = crc16 a p ^^^ crc16 b p :=
  foldl_zipWith_xor (crcByte_xor · · · · p) hl Config.crcInit Config.crcInit

/-- Settles O17: linearity by `crc16_xor`, the other laws from what one step or one byte does to a zero register. -/
theorem crc16Laws : Obligations.Crc16Laws := by
  intro p
  refine ⟨crc16_nil p, crcStep_zero false p, fun s => ?leadingZero, fun a b hl => crc16_xor hl p,
    crcByte_zero_one p, fun s => List.foldl_fixed' crcByte_zero_poly s⟩
  case leadingZero => exact congrArg (fun r => s.foldl (fun r x => crcByte r x p) r) (crcByte_zero p)

end Sys2Proof.Machine
end

section
/-! The operations of unit C, and their independence of the exchanges (40_crc_engine.md R100). -/

namespace Sys2Proof.Machine

/-! ## The five operations -/

/-- Settles O12: the meanings of the three operations and, for the encodings, the decoder by evaluation. -/
theorem crcRegistersAreSetAndRead : Obligations.CrcRegistersAreSetAndRead :=
  ⟨fun _ => ⟨rfl, rfl⟩, fun _ => ⟨rfl, fun _ => rfl, rfl⟩⟩

theorem exec_cBit (d : Bool) (s : State) :
    exec (.cBit d) s = .next { s with crc := crcStep s.crc d s.poly, out := s.out ++ [[0x00]] } := rfl

/-- Settles O13: the bit step in its equivalent form. -/
theorem cBitShiftsAndAppliesThePolynomial : Obligations.CBitShiftsAndAppliesThePolynomial := by
  intro s d
  rw [exec_cBit, crcStep_eq]
  rfl

/-- One `C_BIT` for each bit runs the bit steps in order. -/
theorem execAll_cBits (ds : List Bool) (s : State) :
    execAll (ds.map Instr.cBit) s = .next { s with
      crc := ds.foldl (fun r d => crcStep r d s.poly) s.crc
      out := s.out ++ List.replicate ds.length [0x00] } := by
  induction ds generalizing s with
  | nil => simp [execAll]
  | cons d ds ih => simp [execAll_cons, exec_cBit, ih, List.replicate_succ]

/-- Settles O14: the byte step is the bit steps on `bitsMsbFirst x`. -/
theorem cByteIsEightCBits : Obligations.CByteIsEightCBits :=
  fun s x => ⟨crcByte s.crc x s.poly, _, rfl, execAll_cBits (bitsMsbFirst x) s, rfl⟩

/-- Settles O18: the `C_BYTE`s fold the byte step over CRC, which starts at zero. -/
theorem feedingBytesComputesCrc16 : Obligations.FeedingBytesComputesCrc16 := by
  intro s bs
  refine ⟨fun p => execAll_crc16 p bs s, fun hc hp => ?_⟩
  rw [execAll_cBytes, hc, hp]
  rfl

/-! ## Other values in CRC and POLY -/

@[simp] theorem State.withUnitC_pstate (s : State) (c p : Word) : (s.withUnitC c p).pstate = s.pstate := rfl
@[simp] theorem State.withUnitC_rxq (s : State) (c p : Word) : (s.withUnitC c p).rxq = s.rxq := rfl
@[simp] theorem State.withUnitC_draw (s : State) (c p : Word) : (s.withUnitC c p).draw = s.draw := rfl
@[simp] theorem State.withUnitC_timeoutEnabled (s : State) (c p : Word) :
    (s.withUnitC c p).timeoutEnabled = s.timeoutEnabled := rfl

theorem State.withUnitC_transmit (s : State) (c p : Word) (f : List Byte) :
    (s.withUnitC c p).transmit f = (s.transmit f).withUnitC c p := by
  cases hr : s.pstate.reading with
  | true => rw [State.transmit_of_reading hr, State.transmit_of_reading (s := s.withUnitC c p) hr]; rfl
  | false => rw [State.transmit_of_quiescent hr, State.transmit_of_quiescent (s := s.withUnitC c p) hr]; rfl

theorem State.withUnitC_startExchange (s : State) (c p : Word) (f : List Byte) :
    (s.withUnitC c p).startExchange f = (s.startExchange f).withUnitC c p := by
  cases hf : s.draw.flushFails with
  | true => simp only [State.startExchange, State.withUnitC_draw, hf, if_true]; rfl
  | false =>
    cases hw : s.draw.writeSent <;> simp only [State.startExchange, State.withUnitC_draw, hf, hw] <;> rfl

theorem State.withUnitC_processByte (s : State) (c p : Word) (b : Byte) :
    (s.withUnitC c p).processByte b = (s.processByte b).withUnitC c p := by
  unfold State.processByte
  rw [State.withUnitC_pstate]
  cases s.pstate <;> rfl

theorem State.withUnitC_readAnswered (s : State) (c p : Word) (a : ReadAnswer) :
    (s.withUnitC c p).readAnswered a = (s.readAnswered a).withUnitC c p := by
  unfold State.readAnswered
  rw [State.withUnitC_rxq, State.withUnitC_timeoutEnabled, State.withUnitC_pstate]
  cases s.rxq with
  | nil => cases a with
    | fail | byte => rfl
    | timeout => cases s.timeoutEnabled <;> rfl
  | cons b q => cases a with
    | fail => rfl
    | byte | timeout => exact State.withUnitC_processByte ((s.setRxq q).log (.read b)) c p b

theorem State.withUnitC_readStep (s : State) (c p : Word) :
    (s.withUnitC c p).readStep = s.readStep.withUnitC c p := by
  unfold State.readStep
  rw [State.withUnitC_pstate]
  cases s.pstate.reading with
  | false => rfl
  | true => exact State.withUnitC_readAnswered s.nextDraw c p s.draw.read

theorem exec_withUnitC {i : Instr} {s t : State} (c p : Word) (hu : ofUnitC i = false) (h : exec i s = .next t) :
    exec i (s.withUnitC c p) = .next (t.withUnitC c p) := by
  cases i with
  | cInit | cBit | cByte | cPoly | cRead => cases hu
  | pStatus | response => cases h; rfl
  | pSend | cmdRead | cmdWrite | cmdEeprom =>
    cases h
    exact congrArg _ (State.withUnitC_transmit s c p _)
  | fBuild ty ah al data =>
    cases hb : buildFrame ty ah al data with
    | ok frame =>
      cases (execFBuild_of_ok s hb).symm.trans h
      exact execFBuild_of_ok _ hb
    | error k =>
      cases (execFBuild_of_error s hb).symm.trans h
      exact execFBuild_of_error _ hb
  | pStart f =>
    cases hr : s.pstate.reading with
    | true =>
      cases (exec_pStart_of_reading f hr).symm.trans h
      exact exec_pStart_of_reading (s := s.withUnitC c p) f hr
    | false =>
      cases (exec_pStart_of_quiescent f hr).symm.trans h
      rw [exec_pStart_of_quiescent (s := s.withUnitC c p) f hr, State.withUnitC_startExchange]
  | pPayload =>
    simp only [exec, execPPayload, State.withUnitC_pstate] at h ⊢
    cases hp : s.pstate <;> simp only [hp] at h ⊢ <;> cases h <;> rfl

theorem exec_ofUnitC_frame {i : Instr} {s t : State} (hu : ofUnitC i = true) (h : exec i s = .next t) :
    { t with crc := s.crc, poly := s.poly, out := s.out } = s := by
  cases i with
  | cInit | cBit | cByte | cPoly | cRead => cases h; rfl
  | _ => cases hu

/-- Settles O21: the other units do not read CRC and POLY, and unit C writes nothing else of the state. -/
theorem unitCAndExchangesAreIndependent : Obligations.UnitCAndExchangesAreIndependent :=
  ⟨fun _ _ _ c p hu h => exec_withUnitC c p hu h, State.withUnitC_readStep, fun _ _ _ hu h => exec_ofUnitC_frame hu h⟩

end Sys2Proof.Machine
end

section
/-! What `F_BUILD` returns, and the operations that find an exchange in progress (41_framer.md R131 to R137). -/

namespace Sys2Proof

/-- The three legal command types of 30_encoding.md R73. -/
theorem CommandType.exists_byte_eq_iff {t : Byte} :
    (∃ ty : CommandType, ty.byte = t) ↔ t ∈ ([0x07, 0x08, 0x09] : List Byte) := by
  constructor
  · rintro ⟨ty, rfl⟩
    cases ty <;> decide
  · intro h
    simp only [List.mem_cons, List.not_mem_nil, or_false] at h
    obtain rfl | rfl | rfl := h
    exacts [⟨.read, rfl⟩, ⟨.write, rfl⟩, ⟨.eeprom, rfl⟩]

namespace Machine

/-! ## The outcomes of building -/

theorem buildFrame_of_illegal {t : Byte} (ah al : Byte) (data : List Byte) (h : ¬ ∃ ty : CommandType, ty.byte = t) :
    buildFrame t ah al data = .error .invalidCommandType := by
  cases ht : CommandType.ofByte? t with
  | some ty => exact absurd ⟨ty, CommandType.byte_of_ofByte? ht⟩ h
  | none => simp only [buildFrame, ht]

theorem buildFrame_of_tooLong (ty : CommandType) (ah al : Byte) {data : List Byte}
    (h : data.length > Config.maxPayload) : buildFrame ty.byte ah al data = .error .payloadTooLong := by
  simp [buildFrame, h]

/-- A frame is built only of a legal type and a payload that fits. -/
theorem buildFrame_eq_ok {t ah al : Byte} {data frame : List Byte} (h : buildFrame t ah al data = .ok frame) :
    data.length ≤ Config.maxPayload ∧ frame = commandFrame t ah al data (crcDefault (crcInput t ah al data)) := by
  by_cases ht : ∃ ty : CommandType, ty.byte = t
  · obtain ⟨ty, rfl⟩ := ht
    by_cases hl : data.length ≤ Config.maxPayload
    · rw [buildFrame_of_legal ty ah al hl] at h
      cases h
      exact ⟨hl, rfl⟩
    · rw [buildFrame_of_tooLong ty ah al (by omega)] at h
      cases h
  · rw [buildFrame_of_illegal ah al data ht] at h
    cases h

/-- Settles O22: the encoding is the table's row; the three outcomes of `buildFrame` are those of the operation. -/
theorem fBuildReturnsTheFrameOrItsError : Obligations.FBuildReturnsTheFrameOrItsError := by
  intro s t ah al data
  simp only [← CommandType.exists_byte_eq_iff]
  refine ⟨fun nh nl rest hd => ?encoding, ?frame, fun ht => ?illegal, ?tooLong⟩
  case encoding =>
    obtain ⟨-, -, -, -, -, -, hbuild, -⟩ := portStringsDecodeAsTheTableSays rest
    exact hbuild t ah al nh nl data hd
  case frame =>
    rintro ⟨ty, rfl⟩ hl
    exact execFBuild_of_ok s (buildFrame_of_legal ty ah al hl)
  case illegal => exact execFBuild_of_error s (buildFrame_of_illegal ah al data ht)
  case tooLong =>
    rintro ⟨ty, rfl⟩ hl
    exact execFBuild_of_error s (buildFrame_of_tooLong ty ah al hl)

/-! ## The properties of a built frame -/

/-- A return string with the code 0x00 and two bytes after it is a built frame with its length. -/
theorem exec_fBuild_returned_frame {s u : State} {t ah al lh ll : Byte} {data frame : List Byte}
    (h : exec (.fBuild t ah al data) s = .next u) (hout : u.out = s.out ++ [0x00 :: lh :: ll :: frame]) :
    buildFrame t ah al data = .ok frame ∧ be16 lh ll = lenWord (data.length + 8) := by
  cases hb : buildFrame t ah al data with
  | error k =>
    cases (execFBuild_of_error s hb).symm.trans h
    simp at hout
  | ok built =>
    cases (execFBuild_of_ok s hb).symm.trans h
    cases List.append_cancel_left hout
    exact ⟨rfl, be16_hiByte_loByte _⟩

theorem commandFrame_length (t ah al : Byte) (data : List Byte) (crc : Word) :
    (commandFrame t ah al data crc).length = data.length + 8 := by
  simp [commandFrame]

/-- The last two bytes of a command frame are its trailer. -/
theorem commandFrame_trailer (t ah al : Byte) (data : List Byte) (crc : Word) :
    (commandFrame t ah al data crc).drop ((commandFrame t ah al data crc).length - 2) = beBytes crc := by
  rw [commandFrame_length]
  exact List.drop_left' (by simp)

/-- Settles O23: what is returned is a command frame of at most 263 bytes, whose trailer is its CRC. -/
theorem builtFrameHasTheStatedProperties : Obligations.BuiltFrameHasTheStatedProperties := by
  intro s u t ah al data lh ll frame h hout
  obtain ⟨hb, hlen⟩ := exec_fBuild_returned_frame h hout
  obtain ⟨hl, rfl⟩ := buildFrame_eq_ok hb
  have hcount : (lenWord (data.length + 8)).toNat = data.length + 8 :=
    lenWord_toNat (Nat.le_trans (Nat.add_le_add_right hl 8) (by decide))
  refine ⟨rfl, rfl, ?trailer, commandFrame_length .., ?length, rfl, rfl, rfl, ?payload⟩
  case trailer => rw [commandFrame_trailer, commandFrame_crcInput]
  case length => rw [hlen, hcount, commandFrame_length]
  case payload => simp [commandFrame]

/-! ## During an exchange -/

theorem exec_pSend_of_reading {s : State} (f : List Byte) (h : s.pstate.reading = true) :
    exec (.pSend f) s = .next (s.raiseFault .exchangeBusy) :=
  congrArg Host.Outcome.next (State.transmit_of_reading h)

/-- Settles O31: both operations raise the fault in a reading state. -/
theorem busyOperationsFault : Obligations.BusyOperationsFault :=
  fun _ f h => ⟨exec_pStart_of_reading f h, exec_pSend_of_reading f h⟩

/-- Settles O32: each of the three frames runs as `P_SEND` of its bytes. -/
theorem busyCommandFramesFault : Obligations.BusyCommandFramesFault := by
  intro s ah al data crc hr i hi
  have hty : ∃ ty : CommandType, i = ty.instr ah al data crc := by
    simp only [List.mem_cons, List.not_mem_nil, or_false] at hi
    obtain rfl | rfl | rfl := hi
    exacts [⟨.read, rfl⟩, ⟨.write, rfl⟩, ⟨.eeprom, rfl⟩]
  obtain ⟨ty, rfl⟩ := hty
  exact (exec_commandType_eq_pSend ty ah al data crc s).trans (exec_pSend_of_reading _ hr)

end Machine

end Sys2Proof
end

section
/-! One read step (42_response_parser.md R166 to R177): the rule of each state, and the reads that get no byte. -/

namespace Sys2Proof.Machine

/-! ## The states by kind -/

theorem PState.header_iff_mem {p : PState} : p.header = true ↔ p ∈ [PState.expect02, .expect00a, .expect00b] := by
  cases p <;> simp [PState.header]

theorem PState.body_iff_mem {p : PState} :
    p.body = true ↔ p ∈ [PState.readLength, .readData, .readCrcHi, .readCrcLo] := by
  cases p <;> simp [PState.body]

/-- A state is of at most one of the two kinds. -/
theorem PState.not_header_of_body {p : PState} (h : p.body = true) : p.header = false := by
  cases p with
  | readLength | readData | readCrcHi | readCrcLo => rfl
  | _ => cases h

/-- Only a read can time out. -/
theorem State.reading_of_timeoutEnabled {s : State} (h : s.timeoutEnabled = true) : s.pstate.reading = true := by
  simp only [State.timeoutEnabled, PState.reading, Bool.or_eq_true, Bool.and_eq_true] at h ⊢
  exact h.imp And.left And.left

/-! ## The rule of each state -/

section
variable {s : State} (b : Byte)

theorem State.processByte_expect02 (h : s.pstate = .expect02) :
    s.processByte b = s.expectMarker 0x02#8 .expect00a b := by
  simp only [State.processByte, h]

theorem State.processByte_expect00a (h : s.pstate = .expect00a) :
    s.processByte b = s.expectMarker 0x00#8 .expect00b b := by
  simp only [State.processByte, h]

theorem State.processByte_expect00b (h : s.pstate = .expect00b) :
    s.processByte b = s.expectMarker 0x00#8 .readLength b := by
  simp only [State.processByte, h]

theorem State.processByte_readLength (h : s.pstate = .readLength) : s.processByte b = s.takeLength b := by
  simp only [State.processByte, h]

theorem State.processByte_readData (h : s.pstate = .readData) : s.processByte b = s.takeData b := by
  simp only [State.processByte, h]

theorem State.processByte_readCrcHi (h : s.pstate = .readCrcHi) : s.processByte b = s.takeCrcHi b := by
  simp only [State.processByte, h]

theorem State.processByte_readCrcLo (h : s.pstate = .readCrcLo) : s.processByte b = s.takeCrcLo b := by
  simp only [State.processByte, h]

end

/-- Below LEN the count does not wrap, so the test after the increment is one of numbers (R171). -/
theorem State.processByte_readData_of_lt {s : State} (b : Byte) (hp : s.pstate = .readData)
    (hc : s.cnt.toNat < s.len.toNat) : s.processByte b = ((s.writePbuf s.cnt b).setCnt (s.cnt + 1#8)).goTo
      (if s.cnt.toNat + 1 = s.len.toNat then .readCrcHi else .readData) := by
  have hiff : s.cnt + 1#8 = s.len ↔ s.cnt.toNat + 1 = s.len.toNat := by
    rw [← BitVec.toNat_inj, toNat_succ_of_lt hc]
  rw [State.processByte_readData b hp]
  by_cases hl : s.cnt + 1#8 = s.len
  · rw [State.takeData_of_last hl, if_pos (hiff.1 hl)]
  · rw [State.takeData_of_more hl, if_neg (hl ∘ hiff.2)]

/-! ## The reads that get no byte -/

theorem State.readStep_of_fail {s : State} (hr : s.pstate.reading = true) (hd : s.draw.read = .fail) :
    s.readStep = (s.nextDraw.log .readFail).goTo .transportError := by
  simp only [State.readStep, hr, hd, if_true, State.readAnswered]

theorem State.readStep_of_timeout {s : State} (hd : s.draw.read = .timeout) (hq : s.rxq = [])
    (ht : s.timeoutEnabled = true) : s.readStep = (s.nextDraw.log .readTimeout).goTo s.pstate.onTimeout := by
  obtain ⟨h, -⟩ | ⟨-, h, -⟩ | ⟨b, q, -, -, h, -⟩ | ⟨-, -, -, -, hs⟩ | ⟨-, -, -, h, -⟩ := s.readStep_cases
  · simp [State.reading_of_timeoutEnabled ht] at h
  · simp [hd] at h
  · simp [hq] at h
  · exact hs
  · simp [h hd] at ht

/-- The parser holds (60_exceptions.md R207). -/
theorem State.readStep_of_hold {s : State} (hr : s.pstate.reading = true) (hd : s.draw.read ≠ .fail)
    (hq : s.rxq = []) (ht : s.timeoutEnabled = false) : s.readStep = s.nextDraw := by
  obtain ⟨h, -⟩ | ⟨-, h, -⟩ | ⟨b, q, -, -, h, -⟩ | ⟨-, -, -, h, -⟩ | ⟨-, -, -, -, hs⟩ := s.readStep_cases
  · simp [hr] at h
  · exact absurd h hd
  · simp [hq] at h
  · simp [ht] at h
  · exact hs

/-! ## The read step as a move -/

section
variable {s : State} {ag : List Move}

/-- The byte leaves RXQ and is recorded; then the state's rule processes it. -/
theorem step_read_byte {b : Byte} {q : List Byte} (hf : s.fault = none) (ha : s.agenda = .read :: ag)
    (hr : s.pstate.reading = true) (hq : s.rxq = b :: q) (hd : s.draw.read ≠ .fail) :
    step s = .next (State.processByte b { s with
      rxq := q, hist := s.hist ++ [.read b], agenda := ag, tape := s.tape.tail, drawn := s.drawn + 1 }) := by
  rw [step_read hf ha, State.readStep_of_byte (s := { s with agenda := ag }) hr hd hq]
  rfl

theorem step_read_timeout (hf : s.fault = none) (ha : s.agenda = .read :: ag) (hq : s.rxq = [])
    (hd : s.draw.read = .timeout) (ht : s.timeoutEnabled = true) :
    step s = .next { s with
      pstate := s.pstate.onTimeout, hist := s.hist ++ [.readTimeout]
      agenda := ag, tape := s.tape.tail, drawn := s.drawn + 1 } := by
  rw [step_read hf ha, State.readStep_of_timeout (s := { s with agenda := ag }) hd hq ht]
  rfl

end

/-- Settles O38: in each of the three states the rule is `expectMarker`. -/
theorem markerBytesAreChecked : Obligations.MarkerBytesAreChecked := by
  intro s ag b q hf ha hq hd x hx hp
  simp only [List.mem_cons, List.not_mem_nil, or_false] at hx
  obtain rfl | rfl | rfl := hx
  · exact (step_read_byte hf ha (hp ▸ rfl) hq hd).trans (congrArg _ (State.processByte_expect02 b hp))
  · exact (step_read_byte hf ha (hp ▸ rfl) hq hd).trans (congrArg _ (State.processByte_expect00a b hp))
  · exact (step_read_byte hf ha (hp ▸ rfl) hq hd).trans (congrArg _ (State.processByte_expect00b b hp))

/-- Settles O39: the rule is `takeLength`. -/
theorem lengthByteIsTaken : Obligations.LengthByteIsTaken := by
  intro s ag b q hf ha hq hd hp
  exact (step_read_byte hf ha (hp ▸ rfl) hq hd).trans (congrArg _ (State.processByte_readLength b hp))

/-- Settles O40: the rule is `takeData`, with CNT below LEN by the invariant. -/
theorem dataByteGoesToTheBuffer : Obligations.DataByteGoesToTheBuffer := by
  intro s ag b q hf ha hq hd hp hc
  have hlt : s.cnt.toNat < s.len.toNat := by simpa only [State.CountOk, hp] using hc
  refine ⟨(s.writePbuf s.cnt b).pbuf, s.writePbuf_toList s.cnt b, ?_⟩
  exact (step_read_byte hf ha (hp ▸ rfl) hq hd).trans (congrArg _ (State.processByte_readData_of_lt b hp hlt))

/-- Settles O41: the rules are `takeCrcHi` and `takeCrcLo`. -/
theorem crcBytesAreTakenAndVerified : Obligations.CrcBytesAreTakenAndVerified := by
  intro s ag b q hf ha hq hd
  refine ⟨fun hp => ?high, fun hp => ?low⟩
  case high =>
    exact (step_read_byte hf ha (hp ▸ rfl) hq hd).trans (congrArg _ (State.processByte_readCrcHi b hp))
  case low =>
    exact (step_read_byte hf ha (hp ▸ rfl) hq hd).trans (congrArg _ (State.processByte_readCrcLo b hp))

/-- Settles O42: the kind of the state says which parameter enables the timeout and where it leads. -/
theorem timeoutsEndTheExchange : Obligations.TimeoutsEndTheExchange := by
  intro s ag hf ha hq hd
  simp only [← PState.header_iff_mem, ← PState.body_iff_mem]
  refine ⟨fun hp ht => ?header, fun hp ht => ?body⟩
  case header =>
    rw [step_read_timeout hf ha hq hd (by simp [State.timeoutEnabled, hp, ht]), PState.onTimeout, hp]
    rfl
  case body =>
    rw [step_read_timeout hf ha hq hd (by simp [State.timeoutEnabled, hp, ht]), PState.onTimeout,
      PState.not_header_of_body hp]
    rfl

/-- Settles O43: the failure is decided before RXQ is looked at. -/
theorem readFailureEndsTheExchange : Obligations.ReadFailureEndsTheExchange := by
  intro s ag hf ha hr hd
  rw [step_read hf ha, State.readStep_of_fail (s := { s with agenda := ag }) hr hd]
  rfl

/-! ## The parser that holds -/

/-- A read step that holds leaves all but the draw, so the next one holds again. -/
theorem runSteps_of_hold {k : Nat} {s : State} (hf : s.fault = none) (ha : s.agenda = []) (hq : s.rxq = [])
    (hr : s.pstate.reading = true) (hk : k ≤ s.tape.length) (hd : ∀ d ∈ s.tape, d.read ≠ .fail)
    (ht : s.timeoutEnabled = false) :
    runSteps k s = .next { s with tape := s.tape.drop k, drawn := s.drawn + k } := by
  induction k generalizing s with
  | zero => rfl
  | succ k ih =>
    have hdraw : s.draw.read ≠ .fail := hd _ (State.draw_mem_tape (List.ne_nil_of_length_pos (by omega)))
    have hlen : k ≤ s.tape.tail.length := by rw [List.length_tail]; omega
    have hrest := ih (s := s.nextDraw) hf ha hq hr hlen (fun d h => hd d (List.mem_of_mem_tail h)) ht
    rw [runSteps_succ, step_of_agenda_nil hf ha, andThen_next, State.readStep_of_hold hr hdraw hq ht, hrest]
    simp [State.nextDraw, Nat.add_comm, Nat.add_left_comm]

/-- Settles O44: the state's kind has its timeout parameter false. -/
theorem emptyQueueHoldsTheParser : Obligations.EmptyQueueHoldsTheParser := by
  intro k s hf ha hq hr hk hd
  simp only [← PState.header_iff_mem, ← PState.body_iff_mem]
  rintro ⟨hheader, hbody⟩
  have ht : s.timeoutEnabled = false := by
    simpa [State.timeoutEnabled] using And.intro hheader hbody
  exact runSteps_of_hold hf ha hq hr hk hd ht

end Sys2Proof.Machine
end

section
/-! Before and after an exchange: its start, the reading of its outcome, the terminal states, the end of a run. -/

namespace Sys2Proof.Machine

/-! ## Starting an exchange (42_response_parser.md R161 to R165) -/

theorem State.startExchange_of_success {s : State} (f : List Byte) (hf : s.draw.flushFails = false)
    (hw : s.draw.writeSent = none) :
    s.startExchange f = { s with
      rxq := [], hist := s.hist ++ [.flush, .write f, .delay], len := 0x00, cnt := 0x00, rxcrc := 0x0000
      pstate := .expect02, out := s.out ++ [[0x00]], tape := s.tape.tail, drawn := s.drawn + 1 } := by
  obtain ⟨h, -⟩ | ⟨k, -, h, -⟩ | ⟨-, -, hs⟩ := s.startExchange_cases f
  · simp [hf] at h
  · simp [hw] at h
  · rw [hs]
    simp [State.nextDraw, State.setRxq, State.log, State.setLen, State.setCnt, State.setRxcrc, State.goTo,
      State.reply, ErrorKind.code]

/-- Settles O29: a quiescent `P_START` is `startExchange`, under a draw in which nothing fails. -/
theorem pStartStartsAnExchange : Obligations.PStartStartsAnExchange := by
  intro s f hq hf hw
  rw [exec_pStart_of_quiescent f hq, State.startExchange_of_success f hf hw]

/-- Settles O30: the draw says which of the two failures of `startExchange_cases` it is. -/
theorem pStartFailuresEndInTransportError : Obligations.PStartFailuresEndInTransportError := by
  intro s f hq
  rw [exec_pStart_of_quiescent f hq]
  obtain ⟨hflush, hs⟩ | ⟨k, hflush, hwrite, hs⟩ | ⟨hflush, hwrite, -⟩ := s.startExchange_cases f
  · refine ⟨fun _ => ?_, fun _ h => by simp [hflush] at h⟩
    rw [hs]
    rfl
  · refine ⟨fun h => by simp [hflush] at h, fun k' _ h => ?_⟩
    cases hwrite.symm.trans h
    rw [hs]
    simp [State.nextDraw, State.setRxq, State.log, State.goTo, State.reply, ErrorKind.code]
  · exact ⟨fun h => by simp [hflush] at h, fun _ _ h => by simp [hwrite] at h⟩

/-! ## Reading the outcome (R181, R182) -/

/-- The error kind that `P_PAYLOAD` returns for a state other than DONE (R181). -/
def PState.outcome : PState → ErrorKind
  | .done => .ok
  | .noResponse => .noResponse
  | .checksumError => .checksumError
  | .transportError => .transportError
  | .idle | .expect02 | .expect00a | .expect00b | .readLength | .readData | .readCrcHi | .readCrcLo => .noResult

theorem PState.outcome_of_reading {p : PState} (h : p.reading = true) : p.outcome = .noResult := by
  cases p with
  | done | noResponse | checksumError | transportError => cases h
  | _ => rfl

theorem exec_pPayload_of_done {s : State} (h : s.pstate = .done) :
    exec .pPayload s = .next (s.reply .ok (s.len :: s.pbufPart s.len)) := by
  simp only [exec, execPPayload, h]

/-- Outside DONE the return is the code alone, of PSTATE alone. -/
theorem exec_pPayload_of_not_done {s : State} {p : PState} (hp : s.pstate = p) (h : p ≠ .done) :
    exec .pPayload s = .next (s.reply p.outcome []) := by
  cases p with
  | done => exact absurd rfl h
  | _ => simp only [exec, execPPayload, hp, PState.outcome]

/-- Settles O35: the opcode's row, the payload in DONE and the outcome's code elsewhere. -/
theorem pPayloadReturnsTheOutcome : Obligations.PPayloadReturnsTheOutcome := by
  refine ⟨decode_port_opcode .pPayload, fun s => ⟨exec_pPayload_of_done,
    fun h => exec_pPayload_of_not_done h (by decide), fun h => exec_pPayload_of_not_done h (by decide),
    fun h => exec_pPayload_of_not_done h (by decide), ?noResult⟩⟩
  case noResult =>
    rintro (h | h)
    · exact exec_pPayload_of_not_done h (by decide)
    · have hd : s.pstate ≠ .done := fun hd => by rw [hd] at h; cases h
      rw [exec_pPayload_of_not_done rfl hd, PState.outcome_of_reading h]
      rfl

@[simp] theorem State.withPbuf_pstate (s : State) (b : Vector Byte Config.pbufSize) :
    (s.withPbuf b).pstate = s.pstate := rfl
@[simp] theorem State.withPbuf_draw (s : State) (b : Vector Byte Config.pbufSize) :
    (s.withPbuf b).draw = s.draw := rfl

theorem State.withPbuf_transmit (s : State) (b : Vector Byte Config.pbufSize) (f : List Byte) :
    (s.withPbuf b).transmit f = (s.transmit f).withPbuf b := by
  cases hr : s.pstate.reading with
  | true => rw [State.transmit_of_reading hr, State.transmit_of_reading (s := s.withPbuf b) hr]; rfl
  | false => rw [State.transmit_of_quiescent hr, State.transmit_of_quiescent (s := s.withPbuf b) hr]; rfl

theorem State.withPbuf_startExchange (s : State) (b : Vector Byte Config.pbufSize) (f : List Byte) :
    (s.withPbuf b).startExchange f = (s.startExchange f).withPbuf b := by
  simp only [State.startExchange, State.withPbuf_draw, apply_ite (State.withPbuf b)]
  rfl

/-- What `F_BUILD` returns is a function of its operands (41_framer.md R130). -/
theorem exists_exec_fBuild_eq_reply (t ah al : Byte) (data : List Byte) :
    ∃ k r, ∀ s, exec (.fBuild t ah al data) s = .next (s.reply k r) := by
  cases hb : buildFrame t ah al data with
  | ok frame => exact ⟨_, _, fun s => execFBuild_of_ok s hb⟩
  | error k => exact ⟨_, _, fun s => execFBuild_of_error s hb⟩

/-- Settles O37: only a `P_PAYLOAD` in DONE looks at PBUF. -/
theorem noPayloadLeaksOutsideDone : Obligations.NoPayloadLeaksOutsideDone := by
  intro i s t b hd h
  cases i with
  | cInit | cBit | cByte | cPoly | cRead | pStatus | response => cases h; rfl
  | pSend | cmdRead | cmdWrite | cmdEeprom =>
    cases h
    exact congrArg _ (State.withPbuf_transmit s b _)
  | fBuild ty ah al data =>
    obtain ⟨k, r, he⟩ := exists_exec_fBuild_eq_reply ty ah al data
    cases (he s).symm.trans h
    exact he (s.withPbuf b)
  | pStart f =>
    cases hr : s.pstate.reading with
    | true =>
      cases (exec_pStart_of_reading f hr).symm.trans h
      exact exec_pStart_of_reading (s := s.withPbuf b) f hr
    | false =>
      cases (exec_pStart_of_quiescent f hr).symm.trans h
      rw [exec_pStart_of_quiescent (s := s.withPbuf b) f hr, State.withPbuf_startExchange]
  | pPayload =>
    cases (exec_pPayload_of_not_done rfl hd).symm.trans h
    exact exec_pPayload_of_not_done (s := s.withPbuf b) rfl hd

/-! ## The terminal states (R183) -/

theorem PState.not_reading_of_terminal {p : PState} (h : p.terminal = true) : p.reading = false := by
  cases p with
  | done | checksumError | noResponse | transportError => rfl
  | _ => cases h

/-- No instruction but `P_START` writes PSTATE. -/
theorem exec_pstate {i : Instr} {s t : State} (h : exec i s = .next t) :
    t.pstate = s.pstate ∨ ∃ f, i = .pStart f := by
  obtain ⟨c, p, r, -, rfl⟩ | ⟨k, r, -, rfl⟩ | ⟨k, r, -, rfl⟩ | ⟨-, -, rfl⟩ | ⟨f, -, -, -, rfl⟩ | ⟨f, hi, -, -⟩ |
    ⟨data, crc, -, rfl⟩ := exec_cases h
  case inr.inr.inr.inr.inr.inl => exact .inr ⟨f, hi⟩
  all_goals exact .inl rfl

/-- Settles O46: a terminal state reads nothing, so only `P_START` and a reset event write PSTATE. -/
theorem terminalStateStaysUntilStartOrReset : Obligations.TerminalStateStaysUntilStartOrReset := by
  intro s t hterminal h
  obtain ⟨ag, p, hk⟩ := step_kind h
  cases hk with
  | read =>
    have hq := PState.not_reading_of_terminal hterminal
    exact .inl (by rw [State.readStep_of_quiescent (s := { s with agenda := ag, port := p }) hq])
  | run ha he =>
    obtain hsame | ⟨f, rfl⟩ := exec_pstate he
    · exact .inl hsame
    · exact .inr (.inr ⟨f, _, ha⟩)
  | reset ha => exact .inr (.inl ⟨_, ha⟩)
  | emptyPort | refuse | receive => exact .inl rfl

/-! ## The end of a run (70_reset_and_hazards.md R243) -/

theorem State.over_iff {s : State} :
    s.Over ↔ s.port = [] ∧ (∀ m ∈ s.agenda, m.issues = false) ∧ s.pstate.reading = false := by
  simp [State.Over, State.HostDone, State.internalStepEnabled, and_assoc]

/-- `t` comes after `s` in a run that is over, with no answer and no event between them. -/
structure State.RestsAt (s t : State) : Prop where
  ended : t.Over
  fault : t.fault = none
  out : t.out = s.out
  hist : t.hist = s.hist
  refused : s.refused = false → t.refused = false
  idle : s.agenda = [] → t = s

theorem State.RestsAt.trans {s t u : State} (h : s.RestsAt t) (h' : t.RestsAt u) : s.RestsAt u where
  ended := h'.ended
  fault := h'.fault
  out := h'.out.trans h.out
  hist := h'.hist.trans h.hist
  refused hs := h'.refused (h.refused hs)
  idle hs := by
    have ht := h.idle hs
    rw [ht] at h'
    exact h'.idle hs

/-- The moves that may be left are an empty host move, the core's, the device's and the reset's. -/
theorem State.Over.step {s : State} (ho : s.Over) (hf : s.fault = none) : ∃ t, step s = .next t ∧ s.RestsAt t := by
  obtain ⟨hp, ha, hq⟩ := State.over_iff.1 ho
  cases hag : s.agenda with
  | nil =>
    refine ⟨s, ?_, ho, hf, rfl, rfl, id, fun _ => rfl⟩
    rw [step_of_agenda_nil hf hag, State.readStep_of_quiescent hq]
  | cons m ag =>
    rw [hag] at ha
    obtain ⟨hm, hrest⟩ := List.forall_mem_cons.1 ha
    have hover : State.Over { s with agenda := ag } := State.over_iff.2 ⟨hp, hrest, hq⟩
    have hcons : s.agenda ≠ [] := by simp [hag]
    cases m with
    | host bs =>
      have hbs : bs = [] := by simpa [Move.issues] using hm
      refine ⟨{ s with agenda := ag }, ?_, hover, hf, rfl, rfl, id, fun h => absurd h hcons⟩
      refine step_of_become hf ((State.nextAction_of_agenda_cons hag).trans ?_)
      simp [State.takeMove, State.takePort, hp, hbs]
    | read =>
      refine ⟨{ s with agenda := ag }, ?_, hover, hf, rfl, rfl, id, fun h => absurd h hcons⟩
      rw [step_read hf hag, State.readStep_of_quiescent (s := { s with agenda := ag }) hq]
    | device bs => exact ⟨_, step_device hf hag, hover, hf, rfl, rfl, id, fun h => absurd h hcons⟩
    | transmit bs => cases hm
    | reset =>
      have hreset : State.Over (State.resetEvent { s with agenda := ag }) := State.over_iff.2 ⟨hp, hrest, rfl⟩
      exact ⟨_, step_of_become hf (State.nextAction_of_agenda_cons hag), hreset, rfl, rfl, rfl, fun _ => rfl,
        fun h => absurd h hcons⟩

theorem State.Over.runSteps {s : State} (ho : s.Over) (hf : s.fault = none) (k : Nat) :
    ∃ t, runSteps k s = .next t ∧ s.RestsAt t := by
  induction k generalizing s with
  | zero => exact ⟨s, rfl, ho, hf, rfl, rfl, id, fun _ => rfl⟩
  | succ k ih =>
    obtain ⟨t, hstep, ht⟩ := ho.step hf
    obtain ⟨u, hrun, hu⟩ := ih ht.ended ht.fault
    exact ⟨u, by rw [runSteps_succ, hstep, andThen_next, hrun], ht.trans hu⟩

/-- Settles O11, by induction over the steps. -/
theorem overRunStaysAsItIs : Obligations.OverRunStaysAsItIs := by
  intro s ho hf k
  obtain ⟨t, hrun, ht⟩ := ho.runSteps hf k
  exact ⟨t, hrun, ht.ended, ht.fault, ht.out, ht.hist, fun ⟨_, _, hr⟩ => ⟨ht.ended, ht.fault, ht.refused hr⟩, ht.idle⟩

end Sys2Proof.Machine
end

section
/-! The bytes of a whole exchange: how many its end has read (42_response_parser.md R178), and the two ends of a response
that arrives whole (R184, R185). -/

namespace Sys2Proof.Machine

/-! ## How much an exchange has read -/

/-- With a verdict the registers hold the whole response. -/
theorem State.received_length_of_verdict {s : State} (h : s.pstate = .done ∨ s.pstate = .checksumError) :
    s.received.length = s.len.toNat + 6 := by
  obtain h | h := h <;> simp [State.received, h]

theorem HeaderMismatch.length {bs : List Byte} (h : HeaderMismatch bs) :
    bs.length = 1 ∨ bs.length = 2 ∨ bs.length = 3 := by
  obtain ⟨b, rfl, -⟩ | ⟨b, rfl, -⟩ | ⟨b, rfl, -⟩ := h
  exacts [.inl rfl, .inr (.inl rfl), .inr (.inr rfl)]

theorem HeaderSoFar.length_le {bs : List Byte} (h : HeaderSoFar bs) : bs.length ≤ 2 := by
  obtain rfl | rfl | rfl := h <;> decide

/-- Settles O51: what the invariant says of `H` in each of the three states. -/
theorem noExchangeReadsTooMuch : Obligations.NoExchangeReadsTooMuch := by
  rintro s ⟨-, -, hh⟩
  unfold State.HistoryOk at hh
  refine ⟨fun hp => ?verdict, fun hp => ?noResponse⟩
  case verdict =>
    have hx : ∃ pre f post, s.hist = pre ++ exchangeEvents f s.received ++ post ∧ ∀ x ∈ post, x.IsSend := by
      obtain hp | hp := hp <;> simpa only [hp] using hh
    obtain ⟨pre, f, post, hx, hs⟩ := hx
    exact ⟨pre, f, s.received, post, hx, State.received_length_of_verdict hp, hs⟩
  case noResponse =>
    simp only [hp] at hh
    obtain ⟨pre, f, bs, post, hx, ⟨hm, hs⟩ | ⟨hm, hs⟩⟩ := hh
    · exact ⟨pre, f, bs, post, hx, .inl ⟨hm.length, hm, hs⟩⟩
    · exact ⟨pre, f, bs, post, hx, .inr ⟨hm.length_le, hm, hs⟩⟩

/-! ## Reading a response, byte by byte -/

/-- The states whose registers show every byte of the exchange (10_state.md R26): it goes on, or it has a verdict. -/
def PState.showsExchange (p : PState) : Prop := p.reading = true ∨ p = .done ∨ p = .checksumError

theorem responseFrame_eq (data : List Byte) (crc : Word) :
    responseFrame data crc = 0x02#8 :: 0x00#8 :: 0x00#8 :: lenByte data.length :: (data ++ beBytes crc) := rfl

theorem responseFrame_length (data : List Byte) (crc : Word) : (responseFrame data crc).length = data.length + 6 := by
  simp [responseFrame]

/-- A right marker byte is shown by the next state. -/
theorem State.received_expectMarker {s : State} {expected b : Byte} {p : PState} (hb : b = expected)
    (hp : p.reading = true) (h : (s.goTo p).received = s.received ++ [expected]) :
    (s.expectMarker expected p b).pstate.showsExchange ∧
      (s.expectMarker expected p b).received = s.received ++ [b] := by
  rw [hb, State.expectMarker_of_match]
  exact ⟨.inl hp, h⟩

section
variable {data : List Byte} {crc : Word}

/-- The fourth byte of a response is its length (30_encoding.md R75). -/
theorem toNat_of_append_eq_responseFrame {n : Byte} {bs q : List Byte} (hl : data.length ≤ Config.maxPayload)
    (h : [0x02#8, 0x00#8, 0x00#8] ++ [n] ++ bs ++ q = responseFrame data crc) : n.toNat = data.length := by
  simp only [responseFrame_eq, List.cons_append, List.nil_append, List.cons.injEq, true_and] at h
  obtain ⟨hn, -⟩ := h
  rw [hn, lenByte_toNat hl]

/-- While the bytes read are the response's own, the exchange goes on until all of them are read. -/
theorem State.reading_iff_of_received_append {s : State} {q : List Byte} (hl : data.length ≤ Config.maxPayload)
    (hc : s.CountOk) (hp : s.pstate.showsExchange) (h : s.received ++ q = responseFrame data crc) :
    s.pstate.reading = true ↔ 0 < q.length := by
  have hlen := congrArg List.length h
  rw [List.length_append, responseFrame_length] at hlen
  unfold State.CountOk at hc
  cases hs : s.pstate with
  | expect02 | expect00a | expect00b | readLength =>
    simp only [State.received, hs, List.length_cons, List.length_nil] at hlen
    exact iff_of_true rfl (by omega)
  | readData =>
    simp only [hs] at hc
    simp only [State.received, hs] at h hlen
    have hn := toNat_of_append_eq_responseFrame hl h
    simp only [List.length_append, List.length_cons, List.length_nil, State.pbufPart_length] at hlen
    exact iff_of_true rfl (by omega)
  | readCrcHi | readCrcLo =>
    simp only [State.received, hs, List.append_assoc _ (s.pbufPart s.len)] at h hlen
    have hn := toNat_of_append_eq_responseFrame hl h
    simp only [List.length_append, List.length_cons, List.length_nil, State.pbufPart_length] at hlen
    exact iff_of_true rfl (by omega)
  | done | checksumError =>
    simp only [State.received, hs, List.append_assoc _ (s.pbufPart s.len)] at h hlen
    have hn := toNat_of_append_eq_responseFrame hl h
    simp only [List.length_append, List.length_cons, List.length_nil, State.pbufPart_length, beBytes_length] at hlen
    exact iff_of_false (by decide) (by omega)
  | _ =>
    rw [hs] at hp
    obtain hp | hp | hp := hp <;> cases hp

/-- A byte of the response goes where the registers show it. -/
theorem State.received_processByte {s : State} {b : Byte} {q : List Byte} (hr : s.pstate.reading = true)
    (hc : s.CountOk) (h : s.received ++ b :: q = responseFrame data crc) :
    (s.processByte b).pstate.showsExchange ∧ (s.processByte b).received = s.received ++ [b] := by
  unfold State.CountOk at hc
  rw [responseFrame_eq] at h
  cases hp : s.pstate with
  | expect02 =>
    simp only [State.received, hp, List.nil_append, List.cons.injEq] at h
    obtain ⟨hb, -⟩ := h
    rw [State.processByte_expect02 b hp]
    exact State.received_expectMarker hb rfl (by simp [State.received, hp])
  | expect00a =>
    simp only [State.received, hp, List.cons_append, List.nil_append, List.cons.injEq, true_and] at h
    obtain ⟨hb, -⟩ := h
    rw [State.processByte_expect00a b hp]
    exact State.received_expectMarker hb rfl (by simp [State.received, hp])
  | expect00b =>
    simp only [State.received, hp, List.cons_append, List.nil_append, List.cons.injEq, true_and] at h
    obtain ⟨hb, -⟩ := h
    rw [State.processByte_expect00b b hp]
    exact State.received_expectMarker hb rfl (by simp [State.received, hp])
  | readLength =>
    rw [State.processByte_readLength b hp]
    by_cases hb : b = 0x00#8
    · rw [hb, State.takeLength_of_zero]
      exact ⟨.inl rfl, by simp [State.received, hp, State.pbufPart]⟩
    · rw [State.takeLength_of_pos hb]
      exact ⟨.inl rfl, by simp [State.received, hp, State.pbufPart]⟩
  | readData =>
    simp only [hp] at hc
    have hreceived : s.received ++ [b] =
        [0x02#8, 0x00#8, 0x00#8] ++ [s.len] ++ (s.writePbuf s.cnt b).pbufPart (s.cnt + 1#8) := by
      simp [State.received, hp, State.pbufPart_writePbuf hc]
    rw [State.processByte_readData b hp, hreceived]
    by_cases hlast : s.cnt + 1#8 = s.len
    · rw [State.takeData_of_last hlast, hlast]
      exact ⟨.inl rfl, rfl⟩
    · rw [State.takeData_of_more hlast]
      exact ⟨.inl rfl, rfl⟩
  | readCrcHi =>
    rw [State.processByte_readCrcHi b hp]
    exact ⟨.inl rfl, by simp [State.takeCrcHi, State.received, hp, State.pbufPart]⟩
  | readCrcLo =>
    rw [State.processByte_readCrcLo b hp]
    by_cases hv : s.responseCrc = be16 (hiByte s.rxcrc) b
    · rw [State.takeCrcLo_of_verified hv]
      exact ⟨.inr (.inl rfl), by simp [State.received, hp, State.pbufPart, beBytes]⟩
    · rw [State.takeCrcLo_of_corrupted hv]
      exact ⟨.inr (.inr rfl), by simp [State.received, hp, State.pbufPart, beBytes]⟩
  | _ => rw [hp] at hr; cases hr

end

/-! ## The end of a whole response -/

/-- The exchange has ended with the response of `data` and `crc` in the registers. -/
structure State.HoldsResponse (data : List Byte) (crc : Word) (t : State) : Prop where
  inv : t.Inv
  verdict : t.pstate = .done ∨ t.pstate = .checksumError
  received : t.received = responseFrame data crc

section
variable {data : List Byte} {crc : Word} {t : State}

theorem State.HoldsResponse.registers (h : t.HoldsResponse data crc) (hl : data.length ≤ Config.maxPayload) :
    t.len = lenByte data.length ∧ t.pbufPart t.len = data ∧ t.rxcrc = crc := by
  have hr : [0x02#8, 0x00#8, 0x00#8] ++ [t.len] ++ t.pbufPart t.len ++ beBytes t.rxcrc = responseFrame data crc := by
    rw [← h.received]
    obtain hp | hp := h.verdict <;> simp only [State.received, hp]
  simp only [responseFrame_eq, List.cons_append, List.nil_append, List.cons.injEq, true_and] at hr
  obtain ⟨hlen, hrest⟩ := hr
  have hcount : (t.pbufPart t.len).length = data.length := by
    rw [State.pbufPart_length, hlen, lenByte_toNat hl]
  obtain ⟨hpayload, hcrc⟩ := List.append_inj hrest hcount
  simp only [beBytes, List.cons.injEq, and_true] at hcrc
  obtain ⟨hhi, hlo⟩ := hcrc
  exact ⟨hlen, hpayload, by rw [← be16_hiByte_loByte t.rxcrc, hhi, hlo, be16_hiByte_loByte]⟩

/-- The verdict is that of R173 on the response itself. -/
theorem State.HoldsResponse.done_iff (h : t.HoldsResponse data crc) (hl : data.length ≤ Config.maxPayload) :
    t.pstate = .done ↔ crc = crcDefault ([0x00#8, lenByte data.length] ++ data) := by
  obtain ⟨hlen, hpayload, hcrc⟩ := h.registers hl
  have hresponse : t.responseCrc = crcDefault ([0x00#8, lenByte data.length] ++ data) := by
    rw [State.responseCrc, hpayload, hlen]
  obtain ⟨-, hv, -⟩ := h.inv
  unfold State.VerdictOk at hv
  rw [← hresponse, ← hcrc]
  obtain hp | hp := h.verdict
  · simp only [hp] at hv ⊢
    exact iff_of_true trivial hv.symm
  · simp only [hp] at hv ⊢
    exact iff_of_false (by decide) (Ne.symm hv)

theorem State.Inv.countOk {s : State} (h : s.Inv) : s.CountOk := h.1

/-- By induction over the bytes of the response that are still to come. -/
theorem State.Supplied.runSteps_holdsResponse {q extra : List Byte} {s : State} (hl : data.length ≤ Config.maxPayload)
    (hs : s.Supplied q.length) (hp : s.pstate.showsExchange) (h : s.received ++ q = responseFrame data crc)
    (hq : s.rxq = q ++ extra) :
    ∃ t, runSteps q.length s = .next t ∧ t.HoldsResponse data crc ∧ t.rxq = extra ∧ t.out = s.out := by
  induction q generalizing s with
  | nil =>
    have hended : ¬ s.pstate.reading = true := by
      simp [State.reading_iff_of_received_append hl hs.inv.countOk hp h]
    exact ⟨s, rfl, ⟨hs.inv, hp.resolve_left hended, by simpa using h⟩, hq, rfl⟩
  | cons b q ih =>
    have hr : s.pstate.reading = true :=
      (State.reading_iff_of_received_append hl hs.inv.countOk hp h).2 (by simp)
    have htape : s.tape ≠ [] := List.ne_nil_of_length_pos (Nat.zero_lt_of_lt hs.tape)
    obtain ⟨-, -, hbyte⟩ := hs.succeeds _ (State.draw_mem_tape htape)
    have hstep := State.readStep_of_byte (q := q ++ extra) hr (by simp [hbyte]) hq
    obtain ⟨hp', hreceived⟩ :=
      State.received_processByte (s := (s.nextDraw.setRxq (q ++ extra)).log (.read b)) hr hs.inv.countOk h
    rw [← hstep] at hp' hreceived
    have h' : s.readStep.received ++ q = responseFrame data crc := by
      rw [hreceived, List.append_assoc]
      exact h
    have hq' : s.readStep.rxq = q ++ extra := by
      rw [hstep]
      simp [State.processByte_frame]
    obtain ⟨hs', -, -⟩ := hs.readStep hr
    obtain ⟨t, hrun, ht, hrest, hout⟩ := ih hs' hp' h' hq'
    refine ⟨t, ?_, ht, hrest, hout.trans (by simp [State.readStep_frame])⟩
    rw [List.length_cons, runSteps_succ, step_of_agenda_nil hs.fault hs.agenda, andThen_next, hrun]

end

/-- A response that arrives whole after `P_START`, whatever follows it, is read to its end and no further. -/
theorem exchange_holdsResponse {s : State} (f : List Byte) {data : List Byte} (extra : List Byte) (crc : Word)
    (hl : data.length ≤ Config.maxPayload) (hf : s.fault = none) (hq : s.pstate.reading = false) (ha : s.agenda = [])
    (ht : data.length + 7 ≤ s.tape.length) (hd : ∀ d ∈ s.tape, TransportSucceeds d) :
    ∃ u v t, exec (.pStart f) s = .next u ∧ exec (.response data crc) u = .next v ∧
      runSteps (data.length + 6) { v with rxq := v.rxq ++ extra } = .next t ∧
      t.HoldsResponse data crc ∧ t.rxq = extra ∧ t.out = s.out ++ [[0x00]] := by
  obtain ⟨hflush, hwrite, -⟩ := hd _ (State.draw_mem_tape (List.ne_nil_of_length_pos (by omega)))
  have hstart := State.startExchange_of_success f hflush hwrite
  have hinv := s.startExchange_inv f
  rw [hstart] at hinv
  have hsupplied : State.Supplied (responseFrame data crc).length
      { s.startExchange f with rxq := responseFrame data crc ++ extra } := by
    rw [hstart]
    exact ⟨hinv, hf, ha, by simp, by rw [responseFrame_length, List.length_tail]; omega,
      fun d h => hd d (List.mem_of_mem_tail h)⟩
  obtain ⟨t, hrun, ht⟩ := hsupplied.runSteps_holdsResponse hl (.inl (by rw [hstart]; rfl)) (by rw [hstart]; rfl) rfl
  rw [responseFrame_length] at hrun
  refine ⟨_, _, t, exec_pStart_of_quiescent f hq, exec_response .., ?_, ?_⟩
  · rw [hstart] at hrun ⊢
    exact hrun
  · rw [hstart] at ht
    exact ht

/-- Settles O52: with the right CRC the verdict is DONE, where `P_PAYLOAD` returns LEN and the payload. -/
theorem responseRoundTripYieldsThePayload : Obligations.ResponseRoundTripYieldsThePayload := by
  intro s f data extra hl hf hq ha ht hd
  obtain ⟨u, v, t, hu, hv, hrun, hresponse, hrest, hout⟩ := exchange_holdsResponse f extra
    (crcDefault ([0x00#8, lenByte data.length] ++ data)) hl hf hq ha ht hd
  obtain ⟨hlen, hpayload, -⟩ := hresponse.registers hl
  have hdone : t.pstate = .done := (hresponse.done_iff hl).2 rfl
  refine ⟨u, v, t, hu, hv, hrun, hdone, hrest, ?_⟩
  rw [exec_pPayload_of_done hdone, State.reply, hout, hpayload, hlen, List.append_assoc]
  rfl

/-- Settles O53: with any other CRC the verdict is CHECKSUM_ERROR, where `P_PAYLOAD` returns the code alone. -/
theorem corruptedCrcNeverYieldsAPayload : Obligations.CorruptedCrcNeverYieldsAPayload := by
  intro s f data extra crc hl hf hq ha ht hd hcrc
  obtain ⟨u, v, t, hu, hv, hrun, hresponse, hrest, hout⟩ := exchange_holdsResponse f extra crc hl hf hq ha ht hd
  have herror : t.pstate = .checksumError :=
    hresponse.verdict.resolve_left fun hdone => hcrc ((hresponse.done_iff hl).1 hdone)
  refine ⟨u, v, t, hu, hv, hrun, herror, hrest, ?_⟩
  rw [exec_pPayload_of_not_done herror (by decide), State.reply, hout, List.append_assoc]
  rfl

end Sys2Proof.Machine
end
